-- ==== Sys2Proof/Word.lean ====
section
/-! DEFINITION. The word and byte types of the machine (spec/00_scope.md R5, R8): registers, addresses and 32-bit
immediates are 32 bits wide, the addressable unit is the 8-bit byte. -/

namespace Sys2Proof

/-- A 32-bit value: a register, a bus address, a 32-bit immediate (R5). -/
abbrev Word := BitVec 32

/-- The addressable unit (R5). -/
abbrev Byte := BitVec 8

end Sys2Proof
end

