-- ==== Sys2Proof/Syntax.lean ====
section
/-! DEFINITION. The instructions of the machine: one constructor of `Instr` for each row of the opcode map
(spec/30_encoding.md R111, spec/opcode_table.json), the sixteen registers and the operand kinds (R101). A constructor is
named by its mnemonic and its operand kinds: R register-direct, I register-indirect, V8, V16, V32 an immediate, M
memory-indirect. -/

namespace Sys2Proof

/-- The sixteen registers, index 0 to 15 in this order (spec/10_state.md R20). -/
inductive Reg where
  | a
  | b
  | c
  | d
  | e
  | f
  | g
  | h
  | i
  | j
  | k
  | l
  | fp
  | sp
  | pc
  | fl
deriving DecidableEq, Repr, Inhabited

/-- The width of a move or of a memory access: B, W or D (R125). -/
inductive Width where
  | w8
  | w16
  | w32
deriving DecidableEq, Repr, Inhabited

/-- The six operand kinds, without the carried value (R101, R118). -/
inductive OperandKind where
  | reg
  | regInd
  | imm8
  | imm16
  | imm32
  | memInd
deriving DecidableEq, Repr, Inhabited

/-- A decoded operand (R101). -/
inductive Operand where
  /-- `R`: the register itself. -/
  | reg (r : Reg)
  /-- `[R]`: the memory at the address held in the register. -/
  | regInd (r : Reg)
  /-- `v8`. -/
  | imm8 (v : BitVec 8)
  /-- `v16`. -/
  | imm16 (v : BitVec 16)
  /-- `v32`. -/
  | imm32 (v : Word)
  /-- `[v32]`: the memory at the embedded address. -/
  | memInd (addr : Word)
deriving DecidableEq, Repr, Inhabited

/-- The kind of an operand. -/
def Operand.kind : Operand → OperandKind
  | .reg _ => .reg
  | .regInd _ => .regInd
  | .imm8 _ => .imm8
  | .imm16 _ => .imm16
  | .imm32 _ => .imm32
  | .memInd _ => .memInd

/-- The mnemonics, the two branch synonyms `beq` and `bneq` among them (R116, R123). -/
inductive Mnemonic where
  | mov
  | movb
  | movw
  | movd
  | or
  | xor
  | and
  | shl
  | shr
  | not
  | add
  | sub
  | cmp
  | mul
  | idiv
  | mod
  | inc
  | dec
  | bz
  | bnz
  | bneg
  | bpos
  | bgt
  | bgte
  | blt
  | blte
  | bv
  | bnv
  | jmp
  | jsr
  | ret
  | sys
  | iret
  | pushb
  | pushw
  | pushd
  | pushA
  | popb
  | popw
  | popd
  | popA
  | popx
  | sret
  | nop
  | halt
  | dbg
  | swap
  | beq
  | bneq
deriving DecidableEq, Repr, Inhabited

/-- The mnemonic an alias stands for: `beq` is `bz`, `bneq` is `bnz`, every other name stands for itself (R116, R123). -/
def Mnemonic.canonical : Mnemonic → Mnemonic
  | .beq => .bz
  | .bneq => .bnz
  | m => m

/-- A decoded instruction: one constructor for each row of the opcode map (R111). -/
inductive Instr where
  /-- `mov R, R`, opcode 0x01 (R170). -/
  | movRR (r1 r2 : Reg)
  /-- `mov R, v8`, opcode 0x02 (R171). -/
  | movRV8 (r1 : Reg) (imm : BitVec 8)
  /-- `mov R, v16`, opcode 0x03 (R172). -/
  | movRV16 (r1 : Reg) (imm : BitVec 16)
  /-- `mov R, v32`, opcode 0x04 (R173). -/
  | movRV32 (r1 : Reg) (imm : Word)
  /-- `movb R, [R]`, opcode 0x05 (R174). -/
  | movbRI (r1 r2 : Reg)
  /-- `movb R, [v32]`, opcode 0x06 (R175). -/
  | movbRM (r1 : Reg) (addr : Word)
  /-- `movw R, [R]`, opcode 0x07 (R176). -/
  | movwRI (r1 r2 : Reg)
  /-- `movw R, [v32]`, opcode 0x08 (R177). -/
  | movwRM (r1 : Reg) (addr : Word)
  /-- `movd R, [R]`, opcode 0x09 (R178). -/
  | movdRI (r1 r2 : Reg)
  /-- `movd R, [v32]`, opcode 0x0A (R179). -/
  | movdRM (r1 : Reg) (addr : Word)
  /-- `movb [R], R`, opcode 0x0B (R180). -/
  | movbIR (r1 r2 : Reg)
  /-- `movb [R], v8`, opcode 0x0C (R181). -/
  | movbIV8 (r1 : Reg) (imm : BitVec 8)
  /-- `movb [R], [R]`, opcode 0x0D (R182). -/
  | movbII (r1 r2 : Reg)
  /-- `movb [R], [v32]`, opcode 0x0E (R183). -/
  | movbIM (r1 : Reg) (addr : Word)
  /-- `movw [R], R`, opcode 0x0F (R184). -/
  | movwIR (r1 r2 : Reg)
  /-- `movw [R], v16`, opcode 0x1A (R185). -/
  | movwIV16 (r1 : Reg) (imm : BitVec 16)
  /-- `movw [R], [R]`, opcode 0x1B (R186). -/
  | movwII (r1 r2 : Reg)
  /-- `movw [R], [v32]`, opcode 0x1C (R187). -/
  | movwIM (r1 : Reg) (addr : Word)
  /-- `movd [R], R`, opcode 0x1D (R188). -/
  | movdIR (r1 r2 : Reg)
  /-- `movd [R], v32`, opcode 0x1E (R189). -/
  | movdIV32 (r1 : Reg) (imm : Word)
  /-- `movd [R], [R]`, opcode 0x1F (R190). -/
  | movdII (r1 r2 : Reg)
  /-- `movd [R], [v32]`, opcode 0x20 (R191). -/
  | movdIM (r1 : Reg) (addr : Word)
  /-- `movb [v32], R`, opcode 0x21 (R192). -/
  | movbMR (addr : Word) (r2 : Reg)
  /-- `movb [v32], v8`, opcode 0x22 (R193). -/
  | movbMV8 (addr : Word) (imm : BitVec 8)
  /-- `movb [v32], [R]`, opcode 0x23 (R194). -/
  | movbMI (addr : Word) (r2 : Reg)
  /-- `movb [v32], [v32]`, opcode 0x24 (R195). -/
  | movbMM (addr1 addr2 : Word)
  /-- `movw [v32], R`, opcode 0x25 (R196). -/
  | movwMR (addr : Word) (r2 : Reg)
  /-- `movw [v32], v16`, opcode 0x26 (R197). -/
  | movwMV16 (addr : Word) (imm : BitVec 16)
  /-- `movw [v32], [R]`, opcode 0x27 (R198). -/
  | movwMI (addr : Word) (r2 : Reg)
  /-- `movw [v32], [v32]`, opcode 0x28 (R199). -/
  | movwMM (addr1 addr2 : Word)
  /-- `movd [v32], R`, opcode 0x29 (R200). -/
  | movdMR (addr : Word) (r2 : Reg)
  /-- `movd [v32], v32`, opcode 0x2A (R201). -/
  | movdMV32 (addr imm : Word)
  /-- `movd [v32], [R]`, opcode 0x2B (R202). -/
  | movdMI (addr : Word) (r2 : Reg)
  /-- `movd [v32], [v32]`, opcode 0x2C (R203). -/
  | movdMM (addr1 addr2 : Word)
  /-- `or R, R`, opcode 0x2D (R210). -/
  | orRR (r1 r2 : Reg)
  /-- `or R, v8`, opcode 0x2E (R211). -/
  | orRV8 (r1 : Reg) (imm : BitVec 8)
  /-- `or R, v16`, opcode 0x2F (R212). -/
  | orRV16 (r1 : Reg) (imm : BitVec 16)
  /-- `or R, v32`, opcode 0x30 (R213). -/
  | orRV32 (r1 : Reg) (imm : Word)
  /-- `xor R, R`, opcode 0x31 (R214). -/
  | xorRR (r1 r2 : Reg)
  /-- `xor R, v8`, opcode 0x32 (R215). -/
  | xorRV8 (r1 : Reg) (imm : BitVec 8)
  /-- `xor R, v16`, opcode 0x33 (R216). -/
  | xorRV16 (r1 : Reg) (imm : BitVec 16)
  /-- `xor R, v32`, opcode 0x34 (R217). -/
  | xorRV32 (r1 : Reg) (imm : Word)
  /-- `and R, R`, opcode 0x35 (R218). -/
  | andRR (r1 r2 : Reg)
  /-- `and R, v8`, opcode 0x36 (R219). -/
  | andRV8 (r1 : Reg) (imm : BitVec 8)
  /-- `and R, v16`, opcode 0x37 (R220). -/
  | andRV16 (r1 : Reg) (imm : BitVec 16)
  /-- `and R, v32`, opcode 0x38 (R221). -/
  | andRV32 (r1 : Reg) (imm : Word)
  /-- `shl R, R`, opcode 0x39 (R222). -/
  | shlRR (r1 r2 : Reg)
  /-- `shl R, v8`, opcode 0x3A (R223). -/
  | shlRV8 (r1 : Reg) (imm : BitVec 8)
  /-- `shr R, R`, opcode 0x3D (R224). -/
  | shrRR (r1 r2 : Reg)
  /-- `shr R, v8`, opcode 0x3E (R225). -/
  | shrRV8 (r1 : Reg) (imm : BitVec 8)
  /-- `not R`, opcode 0x41 (R226). -/
  | notR (r1 : Reg)
  /-- `add R, R`, opcode 0x42 (R230). -/
  | addRR (r1 r2 : Reg)
  /-- `add R, v8`, opcode 0x43 (R231). -/
  | addRV8 (r1 : Reg) (imm : BitVec 8)
  /-- `add R, v16`, opcode 0x44 (R232). -/
  | addRV16 (r1 : Reg) (imm : BitVec 16)
  /-- `add R, v32`, opcode 0x45 (R233). -/
  | addRV32 (r1 : Reg) (imm : Word)
  /-- `sub R, R`, opcode 0x46 (R234). -/
  | subRR (r1 r2 : Reg)
  /-- `sub R, v8`, opcode 0x47 (R235). -/
  | subRV8 (r1 : Reg) (imm : BitVec 8)
  /-- `sub R, v16`, opcode 0x48 (R236). -/
  | subRV16 (r1 : Reg) (imm : BitVec 16)
  /-- `sub R, v32`, opcode 0x49 (R237). -/
  | subRV32 (r1 : Reg) (imm : Word)
  /-- `cmp R, R`, opcode 0x4A (R238). -/
  | cmpRR (r1 r2 : Reg)
  /-- `cmp R, v8`, opcode 0x4B (R239). -/
  | cmpRV8 (r1 : Reg) (imm : BitVec 8)
  /-- `cmp R, v16`, opcode 0x4C (R240). -/
  | cmpRV16 (r1 : Reg) (imm : BitVec 16)
  /-- `cmp R, v32`, opcode 0x4D (R241). -/
  | cmpRV32 (r1 : Reg) (imm : Word)
  /-- `mul R, R`, opcode 0x4E (R242). -/
  | mulRR (r1 r2 : Reg)
  /-- `mul R, v8`, opcode 0x4F (R243). -/
  | mulRV8 (r1 : Reg) (imm : BitVec 8)
  /-- `mul R, v16`, opcode 0x50 (R244). -/
  | mulRV16 (r1 : Reg) (imm : BitVec 16)
  /-- `mul R, v32`, opcode 0x51 (R245). -/
  | mulRV32 (r1 : Reg) (imm : Word)
  /-- `idiv R, R`, opcode 0x52 (R246). -/
  | idivRR (r1 r2 : Reg)
  /-- `idiv R, v8`, opcode 0x53 (R247). -/
  | idivRV8 (r1 : Reg) (imm : BitVec 8)
  /-- `idiv R, v16`, opcode 0x54 (R248). -/
  | idivRV16 (r1 : Reg) (imm : BitVec 16)
  /-- `idiv R, v32`, opcode 0x55 (R249). -/
  | idivRV32 (r1 : Reg) (imm : Word)
  /-- `mod R, R`, opcode 0x56 (R250). -/
  | modRR (r1 r2 : Reg)
  /-- `mod R, v8`, opcode 0x57 (R251). -/
  | modRV8 (r1 : Reg) (imm : BitVec 8)
  /-- `mod R, v16`, opcode 0x58 (R252). -/
  | modRV16 (r1 : Reg) (imm : BitVec 16)
  /-- `mod R, v32`, opcode 0x59 (R253). -/
  | modRV32 (r1 : Reg) (imm : Word)
  /-- `inc R`, opcode 0x5A (R254). -/
  | incR (r1 : Reg)
  /-- `dec R`, opcode 0x5B (R255). -/
  | decR (r1 : Reg)
  /-- `bz R`, opcode 0x5C (R260). -/
  | bzR (r1 : Reg)
  /-- `bz v32`, opcode 0x5D (R261). -/
  | bzV32 (imm : Word)
  /-- `bnz R`, opcode 0x5E (R262). -/
  | bnzR (r1 : Reg)
  /-- `bnz v32`, opcode 0x5F (R263). -/
  | bnzV32 (imm : Word)
  /-- `bneg R`, opcode 0x60 (R264). -/
  | bnegR (r1 : Reg)
  /-- `bneg v32`, opcode 0x61 (R265). -/
  | bnegV32 (imm : Word)
  /-- `bpos R`, opcode 0x62 (R266). -/
  | bposR (r1 : Reg)
  /-- `bpos v32`, opcode 0x63 (R267). -/
  | bposV32 (imm : Word)
  /-- `bgt R`, opcode 0x64 (R268). -/
  | bgtR (r1 : Reg)
  /-- `bgt v32`, opcode 0x65 (R269). -/
  | bgtV32 (imm : Word)
  /-- `bgte R`, opcode 0x66 (R270). -/
  | bgteR (r1 : Reg)
  /-- `bgte v32`, opcode 0x67 (R271). -/
  | bgteV32 (imm : Word)
  /-- `blt R`, opcode 0x68 (R272). -/
  | bltR (r1 : Reg)
  /-- `blt v32`, opcode 0x69 (R273). -/
  | bltV32 (imm : Word)
  /-- `blte R`, opcode 0x6A (R274). -/
  | blteR (r1 : Reg)
  /-- `blte v32`, opcode 0x6B (R275). -/
  | blteV32 (imm : Word)
  /-- `bv R`, opcode 0x6C (R276). -/
  | bvR (r1 : Reg)
  /-- `bv v32`, opcode 0x6D (R277). -/
  | bvV32 (imm : Word)
  /-- `bnv R`, opcode 0x6E (R278). -/
  | bnvR (r1 : Reg)
  /-- `bnv v32`, opcode 0x6F (R279). -/
  | bnvV32 (imm : Word)
  /-- `jmp R`, opcode 0x70 (R280). -/
  | jmpR (r1 : Reg)
  /-- `jmp v32`, opcode 0x71 (R281). -/
  | jmpV32 (imm : Word)
  /-- `jsr R`, opcode 0x72 (R282). -/
  | jsrR (r1 : Reg)
  /-- `jsr v32`, opcode 0x73 (R283). -/
  | jsrV32 (imm : Word)
  /-- `ret`, opcode 0x74 (R284). -/
  | ret
  /-- `sys R`, opcode 0x75 (R310). -/
  | sysR (r1 : Reg)
  /-- `sys v8`, opcode 0x76 (R311). -/
  | sysV8 (imm : BitVec 8)
  /-- `iret`, opcode 0x77 (R312). -/
  | iret
  /-- `pushb R`, opcode 0x78 (R290). -/
  | pushbR (r1 : Reg)
  /-- `pushb v8`, opcode 0x79 (R291). -/
  | pushbV8 (imm : BitVec 8)
  /-- `pushw R`, opcode 0x7A (R292). -/
  | pushwR (r1 : Reg)
  /-- `pushw v16`, opcode 0x7B (R293). -/
  | pushwV16 (imm : BitVec 16)
  /-- `pushd R`, opcode 0x7C (R294). -/
  | pushdR (r1 : Reg)
  /-- `pushd v32`, opcode 0x7D (R295). -/
  | pushdV32 (imm : Word)
  /-- `push.a`, opcode 0x7E (R296). -/
  | pushA
  /-- `popb R`, opcode 0x7F (R297). -/
  | popbR (r1 : Reg)
  /-- `popw R`, opcode 0x80 (R298). -/
  | popwR (r1 : Reg)
  /-- `popd R`, opcode 0x81 (R299). -/
  | popdR (r1 : Reg)
  /-- `pop.a`, opcode 0x82 (R300). -/
  | popA
  /-- `popx R`, opcode 0x83 (R301). -/
  | popxR (r1 : Reg)
  /-- `popx v8`, opcode 0x84 (R302). -/
  | popxV8 (imm : BitVec 8)
  /-- `popx v16`, opcode 0x85 (R303). -/
  | popxV16 (imm : BitVec 16)
  /-- `sret`, opcode 0x86 (R313). -/
  | sret
  /-- `nop`, opcode 0x87 (R314). -/
  | nop
  /-- `halt`, opcode 0x88 (R315). -/
  | halt
  /-- `dbg`, opcode 0x89 (R316). -/
  | dbg
  /-- `swap R, R`, opcode 0x8A (R204). -/
  | swapRR (r1 r2 : Reg)
  /-- `cmp R`, opcode 0x8B (R256). -/
  | cmpR (r1 : Reg)
deriving DecidableEq, Repr, Inhabited

/-- The mnemonic of an instruction (R111). -/
def Instr.mnemonic : Instr → Mnemonic
  | .movRR _ _ => .mov
  | .movRV8 _ _ => .mov
  | .movRV16 _ _ => .mov
  | .movRV32 _ _ => .mov
  | .movbRI _ _ => .movb
  | .movbRM _ _ => .movb
  | .movwRI _ _ => .movw
  | .movwRM _ _ => .movw
  | .movdRI _ _ => .movd
  | .movdRM _ _ => .movd
  | .movbIR _ _ => .movb
  | .movbIV8 _ _ => .movb
  | .movbII _ _ => .movb
  | .movbIM _ _ => .movb
  | .movwIR _ _ => .movw
  | .movwIV16 _ _ => .movw
  | .movwII _ _ => .movw
  | .movwIM _ _ => .movw
  | .movdIR _ _ => .movd
  | .movdIV32 _ _ => .movd
  | .movdII _ _ => .movd
  | .movdIM _ _ => .movd
  | .movbMR _ _ => .movb
  | .movbMV8 _ _ => .movb
  | .movbMI _ _ => .movb
  | .movbMM _ _ => .movb
  | .movwMR _ _ => .movw
  | .movwMV16 _ _ => .movw
  | .movwMI _ _ => .movw
  | .movwMM _ _ => .movw
  | .movdMR _ _ => .movd
  | .movdMV32 _ _ => .movd
  | .movdMI _ _ => .movd
  | .movdMM _ _ => .movd
  | .orRR _ _ => .or
  | .orRV8 _ _ => .or
  | .orRV16 _ _ => .or
  | .orRV32 _ _ => .or
  | .xorRR _ _ => .xor
  | .xorRV8 _ _ => .xor
  | .xorRV16 _ _ => .xor
  | .xorRV32 _ _ => .xor
  | .andRR _ _ => .and
  | .andRV8 _ _ => .and
  | .andRV16 _ _ => .and
  | .andRV32 _ _ => .and
  | .shlRR _ _ => .shl
  | .shlRV8 _ _ => .shl
  | .shrRR _ _ => .shr
  | .shrRV8 _ _ => .shr
  | .notR _ => .not
  | .addRR _ _ => .add
  | .addRV8 _ _ => .add
  | .addRV16 _ _ => .add
  | .addRV32 _ _ => .add
  | .subRR _ _ => .sub
  | .subRV8 _ _ => .sub
  | .subRV16 _ _ => .sub
  | .subRV32 _ _ => .sub
  | .cmpRR _ _ => .cmp
  | .cmpRV8 _ _ => .cmp
  | .cmpRV16 _ _ => .cmp
  | .cmpRV32 _ _ => .cmp
  | .mulRR _ _ => .mul
  | .mulRV8 _ _ => .mul
  | .mulRV16 _ _ => .mul
  | .mulRV32 _ _ => .mul
  | .idivRR _ _ => .idiv
  | .idivRV8 _ _ => .idiv
  | .idivRV16 _ _ => .idiv
  | .idivRV32 _ _ => .idiv
  | .modRR _ _ => .mod
  | .modRV8 _ _ => .mod
  | .modRV16 _ _ => .mod
  | .modRV32 _ _ => .mod
  | .incR _ => .inc
  | .decR _ => .dec
  | .bzR _ => .bz
  | .bzV32 _ => .bz
  | .bnzR _ => .bnz
  | .bnzV32 _ => .bnz
  | .bnegR _ => .bneg
  | .bnegV32 _ => .bneg
  | .bposR _ => .bpos
  | .bposV32 _ => .bpos
  | .bgtR _ => .bgt
  | .bgtV32 _ => .bgt
  | .bgteR _ => .bgte
  | .bgteV32 _ => .bgte
  | .bltR _ => .blt
  | .bltV32 _ => .blt
  | .blteR _ => .blte
  | .blteV32 _ => .blte
  | .bvR _ => .bv
  | .bvV32 _ => .bv
  | .bnvR _ => .bnv
  | .bnvV32 _ => .bnv
  | .jmpR _ => .jmp
  | .jmpV32 _ => .jmp
  | .jsrR _ => .jsr
  | .jsrV32 _ => .jsr
  | .ret => .ret
  | .sysR _ => .sys
  | .sysV8 _ => .sys
  | .iret => .iret
  | .pushbR _ => .pushb
  | .pushbV8 _ => .pushb
  | .pushwR _ => .pushw
  | .pushwV16 _ => .pushw
  | .pushdR _ => .pushd
  | .pushdV32 _ => .pushd
  | .pushA => .pushA
  | .popbR _ => .popb
  | .popwR _ => .popw
  | .popdR _ => .popd
  | .popA => .popA
  | .popxR _ => .popx
  | .popxV8 _ => .popx
  | .popxV16 _ => .popx
  | .sret => .sret
  | .nop => .nop
  | .halt => .halt
  | .dbg => .dbg
  | .swapRR _ _ => .swap
  | .cmpR _ => .cmp

/-- The operands of an instruction, operand 1 first (R101, R111). -/
def Instr.operands : Instr → List Operand
  | .movRR r1 r2 => [.reg r1, .reg r2]
  | .movRV8 r1 imm => [.reg r1, .imm8 imm]
  | .movRV16 r1 imm => [.reg r1, .imm16 imm]
  | .movRV32 r1 imm => [.reg r1, .imm32 imm]
  | .movbRI r1 r2 => [.reg r1, .regInd r2]
  | .movbRM r1 addr => [.reg r1, .memInd addr]
  | .movwRI r1 r2 => [.reg r1, .regInd r2]
  | .movwRM r1 addr => [.reg r1, .memInd addr]
  | .movdRI r1 r2 => [.reg r1, .regInd r2]
  | .movdRM r1 addr => [.reg r1, .memInd addr]
  | .movbIR r1 r2 => [.regInd r1, .reg r2]
  | .movbIV8 r1 imm => [.regInd r1, .imm8 imm]
  | .movbII r1 r2 => [.regInd r1, .regInd r2]
  | .movbIM r1 addr => [.regInd r1, .memInd addr]
  | .movwIR r1 r2 => [.regInd r1, .reg r2]
  | .movwIV16 r1 imm => [.regInd r1, .imm16 imm]
  | .movwII r1 r2 => [.regInd r1, .regInd r2]
  | .movwIM r1 addr => [.regInd r1, .memInd addr]
  | .movdIR r1 r2 => [.regInd r1, .reg r2]
  | .movdIV32 r1 imm => [.regInd r1, .imm32 imm]
  | .movdII r1 r2 => [.regInd r1, .regInd r2]
  | .movdIM r1 addr => [.regInd r1, .memInd addr]
  | .movbMR addr r2 => [.memInd addr, .reg r2]
  | .movbMV8 addr imm => [.memInd addr, .imm8 imm]
  | .movbMI addr r2 => [.memInd addr, .regInd r2]
  | .movbMM addr1 addr2 => [.memInd addr1, .memInd addr2]
  | .movwMR addr r2 => [.memInd addr, .reg r2]
  | .movwMV16 addr imm => [.memInd addr, .imm16 imm]
  | .movwMI addr r2 => [.memInd addr, .regInd r2]
  | .movwMM addr1 addr2 => [.memInd addr1, .memInd addr2]
  | .movdMR addr r2 => [.memInd addr, .reg r2]
  | .movdMV32 addr imm => [.memInd addr, .imm32 imm]
  | .movdMI addr r2 => [.memInd addr, .regInd r2]
  | .movdMM addr1 addr2 => [.memInd addr1, .memInd addr2]
  | .orRR r1 r2 => [.reg r1, .reg r2]
  | .orRV8 r1 imm => [.reg r1, .imm8 imm]
  | .orRV16 r1 imm => [.reg r1, .imm16 imm]
  | .orRV32 r1 imm => [.reg r1, .imm32 imm]
  | .xorRR r1 r2 => [.reg r1, .reg r2]
  | .xorRV8 r1 imm => [.reg r1, .imm8 imm]
  | .xorRV16 r1 imm => [.reg r1, .imm16 imm]
  | .xorRV32 r1 imm => [.reg r1, .imm32 imm]
  | .andRR r1 r2 => [.reg r1, .reg r2]
  | .andRV8 r1 imm => [.reg r1, .imm8 imm]
  | .andRV16 r1 imm => [.reg r1, .imm16 imm]
  | .andRV32 r1 imm => [.reg r1, .imm32 imm]
  | .shlRR r1 r2 => [.reg r1, .reg r2]
  | .shlRV8 r1 imm => [.reg r1, .imm8 imm]
  | .shrRR r1 r2 => [.reg r1, .reg r2]
  | .shrRV8 r1 imm => [.reg r1, .imm8 imm]
  | .notR r1 => [.reg r1]
  | .addRR r1 r2 => [.reg r1, .reg r2]
  | .addRV8 r1 imm => [.reg r1, .imm8 imm]
  | .addRV16 r1 imm => [.reg r1, .imm16 imm]
  | .addRV32 r1 imm => [.reg r1, .imm32 imm]
  | .subRR r1 r2 => [.reg r1, .reg r2]
  | .subRV8 r1 imm => [.reg r1, .imm8 imm]
  | .subRV16 r1 imm => [.reg r1, .imm16 imm]
  | .subRV32 r1 imm => [.reg r1, .imm32 imm]
  | .cmpRR r1 r2 => [.reg r1, .reg r2]
  | .cmpRV8 r1 imm => [.reg r1, .imm8 imm]
  | .cmpRV16 r1 imm => [.reg r1, .imm16 imm]
  | .cmpRV32 r1 imm => [.reg r1, .imm32 imm]
  | .mulRR r1 r2 => [.reg r1, .reg r2]
  | .mulRV8 r1 imm => [.reg r1, .imm8 imm]
  | .mulRV16 r1 imm => [.reg r1, .imm16 imm]
  | .mulRV32 r1 imm => [.reg r1, .imm32 imm]
  | .idivRR r1 r2 => [.reg r1, .reg r2]
  | .idivRV8 r1 imm => [.reg r1, .imm8 imm]
  | .idivRV16 r1 imm => [.reg r1, .imm16 imm]
  | .idivRV32 r1 imm => [.reg r1, .imm32 imm]
  | .modRR r1 r2 => [.reg r1, .reg r2]
  | .modRV8 r1 imm => [.reg r1, .imm8 imm]
  | .modRV16 r1 imm => [.reg r1, .imm16 imm]
  | .modRV32 r1 imm => [.reg r1, .imm32 imm]
  | .incR r1 => [.reg r1]
  | .decR r1 => [.reg r1]
  | .bzR r1 => [.reg r1]
  | .bzV32 imm => [.imm32 imm]
  | .bnzR r1 => [.reg r1]
  | .bnzV32 imm => [.imm32 imm]
  | .bnegR r1 => [.reg r1]
  | .bnegV32 imm => [.imm32 imm]
  | .bposR r1 => [.reg r1]
  | .bposV32 imm => [.imm32 imm]
  | .bgtR r1 => [.reg r1]
  | .bgtV32 imm => [.imm32 imm]
  | .bgteR r1 => [.reg r1]
  | .bgteV32 imm => [.imm32 imm]
  | .bltR r1 => [.reg r1]
  | .bltV32 imm => [.imm32 imm]
  | .blteR r1 => [.reg r1]
  | .blteV32 imm => [.imm32 imm]
  | .bvR r1 => [.reg r1]
  | .bvV32 imm => [.imm32 imm]
  | .bnvR r1 => [.reg r1]
  | .bnvV32 imm => [.imm32 imm]
  | .jmpR r1 => [.reg r1]
  | .jmpV32 imm => [.imm32 imm]
  | .jsrR r1 => [.reg r1]
  | .jsrV32 imm => [.imm32 imm]
  | .ret => []
  | .sysR r1 => [.reg r1]
  | .sysV8 imm => [.imm8 imm]
  | .iret => []
  | .pushbR r1 => [.reg r1]
  | .pushbV8 imm => [.imm8 imm]
  | .pushwR r1 => [.reg r1]
  | .pushwV16 imm => [.imm16 imm]
  | .pushdR r1 => [.reg r1]
  | .pushdV32 imm => [.imm32 imm]
  | .pushA => []
  | .popbR r1 => [.reg r1]
  | .popwR r1 => [.reg r1]
  | .popdR r1 => [.reg r1]
  | .popA => []
  | .popxR r1 => [.reg r1]
  | .popxV8 imm => [.imm8 imm]
  | .popxV16 imm => [.imm16 imm]
  | .sret => []
  | .nop => []
  | .halt => []
  | .dbg => []
  | .swapRR r1 r2 => [.reg r1, .reg r2]
  | .cmpR r1 => [.reg r1]

end Sys2Proof
end

