-- ==== Sys2Proof/WellFormed.lean ====
section
/-! DEFINITION. Which instruction terms are instructions of the machine. `Instr` has one constructor for each legal form and
typed fields, so each of its values is well formed; the checks here are on the assembler's term, a mnemonic with any list
of operands (spec/30_encoding.md R101, R115, R118). -/

namespace Sys2Proof

/-- A mnemonic with its operands, as the assembler writes it (R118, R122). -/
structure AsmInstr where
  mnemonic : Mnemonic
  operands : List Operand
deriving DecidableEq, Repr, Inhabited

/-- The assembler term of an instruction. -/
def Instr.asm (i : Instr) : AsmInstr := ⟨i.mnemonic, i.operands⟩

/-- The operand forms of the move family (R111). -/
def legalFormsMove : List (Mnemonic × List OperandKind) := [
  (.mov, [.reg, .reg]),
  (.mov, [.reg, .imm8]),
  (.mov, [.reg, .imm16]),
  (.mov, [.reg, .imm32]),
  (.movb, [.reg, .regInd]),
  (.movb, [.reg, .memInd]),
  (.movw, [.reg, .regInd]),
  (.movw, [.reg, .memInd]),
  (.movd, [.reg, .regInd]),
  (.movd, [.reg, .memInd]),
  (.movb, [.regInd, .reg]),
  (.movb, [.regInd, .imm8]),
  (.movb, [.regInd, .regInd]),
  (.movb, [.regInd, .memInd]),
  (.movw, [.regInd, .reg]),
  (.movw, [.regInd, .imm16]),
  (.movw, [.regInd, .regInd]),
  (.movw, [.regInd, .memInd]),
  (.movd, [.regInd, .reg]),
  (.movd, [.regInd, .imm32]),
  (.movd, [.regInd, .regInd]),
  (.movd, [.regInd, .memInd]),
  (.movb, [.memInd, .reg]),
  (.movb, [.memInd, .imm8]),
  (.movb, [.memInd, .regInd]),
  (.movb, [.memInd, .memInd]),
  (.movw, [.memInd, .reg]),
  (.movw, [.memInd, .imm16]),
  (.movw, [.memInd, .regInd]),
  (.movw, [.memInd, .memInd]),
  (.movd, [.memInd, .reg]),
  (.movd, [.memInd, .imm32]),
  (.movd, [.memInd, .regInd]),
  (.movd, [.memInd, .memInd]),
  (.swap, [.reg, .reg])]

/-- The operand forms of the logic family (R111). -/
def legalFormsLogic : List (Mnemonic × List OperandKind) := [
  (.or, [.reg, .reg]),
  (.or, [.reg, .imm8]),
  (.or, [.reg, .imm16]),
  (.or, [.reg, .imm32]),
  (.xor, [.reg, .reg]),
  (.xor, [.reg, .imm8]),
  (.xor, [.reg, .imm16]),
  (.xor, [.reg, .imm32]),
  (.and, [.reg, .reg]),
  (.and, [.reg, .imm8]),
  (.and, [.reg, .imm16]),
  (.and, [.reg, .imm32]),
  (.shl, [.reg, .reg]),
  (.shl, [.reg, .imm8]),
  (.shr, [.reg, .reg]),
  (.shr, [.reg, .imm8]),
  (.not, [.reg])]

/-- The operand forms of the arithmetic family (R111). -/
def legalFormsArithmetic : List (Mnemonic × List OperandKind) := [
  (.add, [.reg, .reg]),
  (.add, [.reg, .imm8]),
  (.add, [.reg, .imm16]),
  (.add, [.reg, .imm32]),
  (.sub, [.reg, .reg]),
  (.sub, [.reg, .imm8]),
  (.sub, [.reg, .imm16]),
  (.sub, [.reg, .imm32]),
  (.cmp, [.reg, .reg]),
  (.cmp, [.reg, .imm8]),
  (.cmp, [.reg, .imm16]),
  (.cmp, [.reg, .imm32]),
  (.mul, [.reg, .reg]),
  (.mul, [.reg, .imm8]),
  (.mul, [.reg, .imm16]),
  (.mul, [.reg, .imm32]),
  (.idiv, [.reg, .reg]),
  (.idiv, [.reg, .imm8]),
  (.idiv, [.reg, .imm16]),
  (.idiv, [.reg, .imm32]),
  (.mod, [.reg, .reg]),
  (.mod, [.reg, .imm8]),
  (.mod, [.reg, .imm16]),
  (.mod, [.reg, .imm32]),
  (.inc, [.reg]),
  (.dec, [.reg]),
  (.cmp, [.reg])]

/-- The operand forms of the branch family (R111). -/
def legalFormsBranch : List (Mnemonic × List OperandKind) := [
  (.bz, [.reg]),
  (.bz, [.imm32]),
  (.bnz, [.reg]),
  (.bnz, [.imm32]),
  (.bneg, [.reg]),
  (.bneg, [.imm32]),
  (.bpos, [.reg]),
  (.bpos, [.imm32]),
  (.bgt, [.reg]),
  (.bgt, [.imm32]),
  (.bgte, [.reg]),
  (.bgte, [.imm32]),
  (.blt, [.reg]),
  (.blt, [.imm32]),
  (.blte, [.reg]),
  (.blte, [.imm32]),
  (.bv, [.reg]),
  (.bv, [.imm32]),
  (.bnv, [.reg]),
  (.bnv, [.imm32]),
  (.jmp, [.reg]),
  (.jmp, [.imm32]),
  (.jsr, [.reg]),
  (.jsr, [.imm32]),
  (.ret, [])]

/-- The operand forms of the stack family (R111). -/
def legalFormsStack : List (Mnemonic × List OperandKind) := [
  (.pushb, [.reg]),
  (.pushb, [.imm8]),
  (.pushw, [.reg]),
  (.pushw, [.imm16]),
  (.pushd, [.reg]),
  (.pushd, [.imm32]),
  (.pushA, []),
  (.popb, [.reg]),
  (.popw, [.reg]),
  (.popd, [.reg]),
  (.popA, []),
  (.popx, [.reg]),
  (.popx, [.imm8]),
  (.popx, [.imm16])]

/-- The operand forms of the misc family (R111). -/
def legalFormsMisc : List (Mnemonic × List OperandKind) := [
  (.sys, [.reg]),
  (.sys, [.imm8]),
  (.iret, []),
  (.sret, []),
  (.nop, []),
  (.halt, []),
  (.dbg, [])]

/-- Every operand form of the opcode map (R111). -/
def legalForms : List (Mnemonic × List OperandKind) :=
  legalFormsMove ++ legalFormsLogic ++ legalFormsArithmetic ++ legalFormsBranch ++ legalFormsStack ++ legalFormsMisc

/-- An immediate operand kind. -/
def OperandKind.isImmediate : OperandKind → Bool
  | .imm8 | .imm16 | .imm32 => true
  | .reg | .regInd | .memInd => false

/-- The mnemonics whose instruction writes its operand 1 (41_move.md to 45_stack.md). -/
def Mnemonic.writesOperand1 : Mnemonic → Bool
  | .mov | .movb | .movw | .movd | .swap => true
  | .or | .xor | .and | .shl | .shr | .not => true
  | .add | .sub | .mul | .idiv | .mod | .inc | .dec => true
  | .popb | .popw | .popd => true
  | _ => false

/-- An instruction has zero, one or two operands (R101). -/
def AsmInstr.arityOk (x : AsmInstr) : Bool := decide (x.operands.length ≤ 2)

/-- The mnemonic has a row with these operand kinds; an alias has its canonical name's rows (R116, R118). -/
def AsmInstr.formExists (x : AsmInstr) : Bool :=
  legalForms.contains (x.mnemonic.canonical, x.operands.map Operand.kind)

/-- No immediate is operand 1 of an instruction that writes operand 1 (R115). -/
def AsmInstr.destinationAddressable (x : AsmInstr) : Bool :=
  match x.operands with
  | [] => true
  | o :: _ => !(x.mnemonic.canonical.writesOperand1 && o.kind.isImmediate)

/-- The three checks together. -/
def AsmInstr.wellFormed (x : AsmInstr) : Bool := x.arityOk && x.formExists && x.destinationAddressable

/-- An instruction is well formed when its assembler term is. -/
abbrev Instr.WellFormed (i : Instr) : Prop := i.asm.wellFormed = true

end Sys2Proof
end

