-- ==== Sys2Proof/Decode.lean ====
section
/-! DEFINITION. Decoding, total on any bytes and rejecting by name (spec/30_encoding.md R104), and the encoder beside it,
both from the tables of R103 and R111. The decoder reads an instruction's bytes one by one through a reader, so that it asks
for exactly the bytes the spec's `Decode` asks for, in its order (R104, R109): the machine's reader is the bus
(Sys2Proof/Machine/Fetch.lean). -/

namespace Sys2Proof

/-- The index of a register (R20). -/
def Reg.index : Reg → BitVec 4
  | .a => 0
  | .b => 1
  | .c => 2
  | .d => 3
  | .e => 4
  | .f => 5
  | .g => 6
  | .h => 7
  | .i => 8
  | .j => 9
  | .k => 10
  | .l => 11
  | .fp => 12
  | .sp => 13
  | .pc => 14
  | .fl => 15

/-- The register of an index (R20, R106). -/
def Reg.ofIndex (n : BitVec 4) : Reg :=
  match n.toNat with
  | 0 => .a
  | 1 => .b
  | 2 => .c
  | 3 => .d
  | 4 => .e
  | 5 => .f
  | 6 => .g
  | 7 => .h
  | 8 => .i
  | 9 => .j
  | 10 => .k
  | 11 => .l
  | 12 => .fp
  | 13 => .sp
  | 14 => .pc
  | _ => .fl

/-- Where byte `k` of an instruction is read from; `none` where that byte cannot be read. -/
abbrev ByteReader := Nat → Option Byte

/-- Why no instruction was decoded. -/
inductive DecodeError where
  /-- Byte `k` of the instruction, which decoding asked for, cannot be read: the bus raises `OutOfRange` there (R104). -/
  | unreadable (k : Nat)
  /-- No row has this opcode byte (R112), or its lone register byte names no register (R105). -/
  | illegalInstruction (op : Byte)
deriving DecidableEq, Repr

/-- Byte `k` of the instruction. -/
def readByte (get : ByteReader) (k : Nat) : Except DecodeError Byte :=
  match get k with
  | some b => .ok b
  | none => .error (.unreadable k)

/-- A 16-bit little-endian field at bytes `k`, `k + 1` (R103, R107). -/
def readField16 (get : ByteReader) (k : Nat) : Except DecodeError (BitVec 16) := do
  let b0 ← readByte get k
  let b1 ← readByte get (k + 1)
  return b1 ++ b0

/-- A 32-bit little-endian field at bytes `k` to `k + 3` (R103, R107, R108). -/
def readField32 (get : ByteReader) (k : Nat) : Except DecodeError Word := do
  let b0 ← readByte get k
  let b1 ← readByte get (k + 1)
  let b2 ← readByte get (k + 2)
  let b3 ← readByte get (k + 3)
  return b3 ++ b2 ++ b1 ++ b0

/-- A lone register byte: the index is its value, and a value above 0x0F names no register (R105). -/
def readLoneReg (op : Byte) (get : ByteReader) (k : Nat) : Except DecodeError Reg := do
  let b ← readByte get k
  if b.toNat ≤ 0x0F then return Reg.ofIndex (b.setWidth 4) else .error (.illegalInstruction op)

/-- A row's operand pattern with the instruction it builds: the fifteen formats of R103. -/
inductive Form where
  | none (mk : Instr)
  | r (mk : Reg → Instr)
  | v8 (mk : BitVec 8 → Instr)
  | v16 (mk : BitVec 16 → Instr)
  | v32 (mk : Word → Instr)
  | rr (mk : Reg → Reg → Instr)
  | rV8 (mk : Reg → BitVec 8 → Instr)
  | rV16 (mk : Reg → BitVec 16 → Instr)
  | rV32 (mk : Reg → Word → Instr)
  | rM (mk : Reg → Word → Instr)
  | mR (mk : Word → Reg → Instr)
  | mV8 (mk : Word → BitVec 8 → Instr)
  | mV16 (mk : Word → BitVec 16 → Instr)
  | mV32 (mk : Word → Word → Instr)
  | mM (mk : Word → Word → Instr)

/-- The row of an opcode byte, `none` for the 131 unassigned values (R111, R112). The numbers are the spec's
(UNVERIFIED beyond it: log entry 11). -/
def formOf (op : Byte) : Option Form :=
  match op.toNat with
  | 0x01 => some (.rr .movRR)
  | 0x02 => some (.rV8 .movRV8)
  | 0x03 => some (.rV16 .movRV16)
  | 0x04 => some (.rV32 .movRV32)
  | 0x05 => some (.rr .movbRI)
  | 0x06 => some (.rM .movbRM)
  | 0x07 => some (.rr .movwRI)
  | 0x08 => some (.rM .movwRM)
  | 0x09 => some (.rr .movdRI)
  | 0x0A => some (.rM .movdRM)
  | 0x0B => some (.rr .movbIR)
  | 0x0C => some (.rV8 .movbIV8)
  | 0x0D => some (.rr .movbII)
  | 0x0E => some (.rM .movbIM)
  | 0x0F => some (.rr .movwIR)
  | 0x1A => some (.rV16 .movwIV16)
  | 0x1B => some (.rr .movwII)
  | 0x1C => some (.rM .movwIM)
  | 0x1D => some (.rr .movdIR)
  | 0x1E => some (.rV32 .movdIV32)
  | 0x1F => some (.rr .movdII)
  | 0x20 => some (.rM .movdIM)
  | 0x21 => some (.mR .movbMR)
  | 0x22 => some (.mV8 .movbMV8)
  | 0x23 => some (.mR .movbMI)
  | 0x24 => some (.mM .movbMM)
  | 0x25 => some (.mR .movwMR)
  | 0x26 => some (.mV16 .movwMV16)
  | 0x27 => some (.mR .movwMI)
  | 0x28 => some (.mM .movwMM)
  | 0x29 => some (.mR .movdMR)
  | 0x2A => some (.mV32 .movdMV32)
  | 0x2B => some (.mR .movdMI)
  | 0x2C => some (.mM .movdMM)
  | 0x2D => some (.rr .orRR)
  | 0x2E => some (.rV8 .orRV8)
  | 0x2F => some (.rV16 .orRV16)
  | 0x30 => some (.rV32 .orRV32)
  | 0x31 => some (.rr .xorRR)
  | 0x32 => some (.rV8 .xorRV8)
  | 0x33 => some (.rV16 .xorRV16)
  | 0x34 => some (.rV32 .xorRV32)
  | 0x35 => some (.rr .andRR)
  | 0x36 => some (.rV8 .andRV8)
  | 0x37 => some (.rV16 .andRV16)
  | 0x38 => some (.rV32 .andRV32)
  | 0x39 => some (.rr .shlRR)
  | 0x3A => some (.rV8 .shlRV8)
  | 0x3D => some (.rr .shrRR)
  | 0x3E => some (.rV8 .shrRV8)
  | 0x41 => some (.r .notR)
  | 0x42 => some (.rr .addRR)
  | 0x43 => some (.rV8 .addRV8)
  | 0x44 => some (.rV16 .addRV16)
  | 0x45 => some (.rV32 .addRV32)
  | 0x46 => some (.rr .subRR)
  | 0x47 => some (.rV8 .subRV8)
  | 0x48 => some (.rV16 .subRV16)
  | 0x49 => some (.rV32 .subRV32)
  | 0x4A => some (.rr .cmpRR)
  | 0x4B => some (.rV8 .cmpRV8)
  | 0x4C => some (.rV16 .cmpRV16)
  | 0x4D => some (.rV32 .cmpRV32)
  | 0x4E => some (.rr .mulRR)
  | 0x4F => some (.rV8 .mulRV8)
  | 0x50 => some (.rV16 .mulRV16)
  | 0x51 => some (.rV32 .mulRV32)
  | 0x52 => some (.rr .idivRR)
  | 0x53 => some (.rV8 .idivRV8)
  | 0x54 => some (.rV16 .idivRV16)
  | 0x55 => some (.rV32 .idivRV32)
  | 0x56 => some (.rr .modRR)
  | 0x57 => some (.rV8 .modRV8)
  | 0x58 => some (.rV16 .modRV16)
  | 0x59 => some (.rV32 .modRV32)
  | 0x5A => some (.r .incR)
  | 0x5B => some (.r .decR)
  | 0x5C => some (.r .bzR)
  | 0x5D => some (.v32 .bzV32)
  | 0x5E => some (.r .bnzR)
  | 0x5F => some (.v32 .bnzV32)
  | 0x60 => some (.r .bnegR)
  | 0x61 => some (.v32 .bnegV32)
  | 0x62 => some (.r .bposR)
  | 0x63 => some (.v32 .bposV32)
  | 0x64 => some (.r .bgtR)
  | 0x65 => some (.v32 .bgtV32)
  | 0x66 => some (.r .bgteR)
  | 0x67 => some (.v32 .bgteV32)
  | 0x68 => some (.r .bltR)
  | 0x69 => some (.v32 .bltV32)
  | 0x6A => some (.r .blteR)
  | 0x6B => some (.v32 .blteV32)
  | 0x6C => some (.r .bvR)
  | 0x6D => some (.v32 .bvV32)
  | 0x6E => some (.r .bnvR)
  | 0x6F => some (.v32 .bnvV32)
  | 0x70 => some (.r .jmpR)
  | 0x71 => some (.v32 .jmpV32)
  | 0x72 => some (.r .jsrR)
  | 0x73 => some (.v32 .jsrV32)
  | 0x74 => some (.none .ret)
  | 0x75 => some (.r .sysR)
  | 0x76 => some (.v8 .sysV8)
  | 0x77 => some (.none .iret)
  | 0x78 => some (.r .pushbR)
  | 0x79 => some (.v8 .pushbV8)
  | 0x7A => some (.r .pushwR)
  | 0x7B => some (.v16 .pushwV16)
  | 0x7C => some (.r .pushdR)
  | 0x7D => some (.v32 .pushdV32)
  | 0x7E => some (.none .pushA)
  | 0x7F => some (.r .popbR)
  | 0x80 => some (.r .popwR)
  | 0x81 => some (.r .popdR)
  | 0x82 => some (.none .popA)
  | 0x83 => some (.r .popxR)
  | 0x84 => some (.v8 .popxV8)
  | 0x85 => some (.v16 .popxV16)
  | 0x86 => some (.none .sret)
  | 0x87 => some (.none .nop)
  | 0x88 => some (.none .halt)
  | 0x89 => some (.none .dbg)
  | 0x8A => some (.rr .swapRR)
  | 0x8B => some (.r .cmpR)
  | _ => none

/-- The operand bytes, all of operand 1 before all of operand 2 (R103, R104); the pair byte holds operand 1 in its high
nibble (R102). -/
def Form.decode (op : Byte) (get : ByteReader) : Form → Except DecodeError Instr
  | .none mk => return mk
  | .r mk => do return mk (← readLoneReg op get 1)
  | .v8 mk => do return mk (← readByte get 1)
  | .v16 mk => do return mk (← readField16 get 1)
  | .v32 mk => do return mk (← readField32 get 1)
  | .rr mk => do
    let b ← readByte get 1
    return mk (Reg.ofIndex (b.extractLsb' 4 4)) (Reg.ofIndex (b.extractLsb' 0 4))
  | .rV8 mk => do
    let r ← readLoneReg op get 1
    return mk r (← readByte get 2)
  | .rV16 mk => do
    let r ← readLoneReg op get 1
    return mk r (← readField16 get 2)
  | .rV32 mk => do
    let r ← readLoneReg op get 1
    return mk r (← readField32 get 2)
  | .rM mk => do
    let r ← readLoneReg op get 1
    return mk r (← readField32 get 2)
  | .mR mk => do
    let a ← readField32 get 1
    return mk a (← readLoneReg op get 5)
  | .mV8 mk => do
    let a ← readField32 get 1
    return mk a (← readByte get 5)
  | .mV16 mk => do
    let a ← readField32 get 1
    return mk a (← readField16 get 5)
  | .mV32 mk => do
    let a ← readField32 get 1
    return mk a (← readField32 get 5)
  | .mM mk => do
    let a ← readField32 get 1
    return mk a (← readField32 get 5)

/-- `Decode` (R104): the opcode byte selects the row, and the row's operand bytes follow. -/
def decode (get : ByteReader) : Except DecodeError Instr := do
  let op ← readByte get 0
  match formOf op with
  | none => .error (.illegalInstruction op)
  | some form => form.decode op get

/-- The opcode byte of an instruction (R111). -/
def Instr.opcode : Instr → Byte
  | .movRR _ _ => 0x01#8
  | .movRV8 _ _ => 0x02#8
  | .movRV16 _ _ => 0x03#8
  | .movRV32 _ _ => 0x04#8
  | .movbRI _ _ => 0x05#8
  | .movbRM _ _ => 0x06#8
  | .movwRI _ _ => 0x07#8
  | .movwRM _ _ => 0x08#8
  | .movdRI _ _ => 0x09#8
  | .movdRM _ _ => 0x0A#8
  | .movbIR _ _ => 0x0B#8
  | .movbIV8 _ _ => 0x0C#8
  | .movbII _ _ => 0x0D#8
  | .movbIM _ _ => 0x0E#8
  | .movwIR _ _ => 0x0F#8
  | .movwIV16 _ _ => 0x1A#8
  | .movwII _ _ => 0x1B#8
  | .movwIM _ _ => 0x1C#8
  | .movdIR _ _ => 0x1D#8
  | .movdIV32 _ _ => 0x1E#8
  | .movdII _ _ => 0x1F#8
  | .movdIM _ _ => 0x20#8
  | .movbMR _ _ => 0x21#8
  | .movbMV8 _ _ => 0x22#8
  | .movbMI _ _ => 0x23#8
  | .movbMM _ _ => 0x24#8
  | .movwMR _ _ => 0x25#8
  | .movwMV16 _ _ => 0x26#8
  | .movwMI _ _ => 0x27#8
  | .movwMM _ _ => 0x28#8
  | .movdMR _ _ => 0x29#8
  | .movdMV32 _ _ => 0x2A#8
  | .movdMI _ _ => 0x2B#8
  | .movdMM _ _ => 0x2C#8
  | .orRR _ _ => 0x2D#8
  | .orRV8 _ _ => 0x2E#8
  | .orRV16 _ _ => 0x2F#8
  | .orRV32 _ _ => 0x30#8
  | .xorRR _ _ => 0x31#8
  | .xorRV8 _ _ => 0x32#8
  | .xorRV16 _ _ => 0x33#8
  | .xorRV32 _ _ => 0x34#8
  | .andRR _ _ => 0x35#8
  | .andRV8 _ _ => 0x36#8
  | .andRV16 _ _ => 0x37#8
  | .andRV32 _ _ => 0x38#8
  | .shlRR _ _ => 0x39#8
  | .shlRV8 _ _ => 0x3A#8
  | .shrRR _ _ => 0x3D#8
  | .shrRV8 _ _ => 0x3E#8
  | .notR _ => 0x41#8
  | .addRR _ _ => 0x42#8
  | .addRV8 _ _ => 0x43#8
  | .addRV16 _ _ => 0x44#8
  | .addRV32 _ _ => 0x45#8
  | .subRR _ _ => 0x46#8
  | .subRV8 _ _ => 0x47#8
  | .subRV16 _ _ => 0x48#8
  | .subRV32 _ _ => 0x49#8
  | .cmpRR _ _ => 0x4A#8
  | .cmpRV8 _ _ => 0x4B#8
  | .cmpRV16 _ _ => 0x4C#8
  | .cmpRV32 _ _ => 0x4D#8
  | .mulRR _ _ => 0x4E#8
  | .mulRV8 _ _ => 0x4F#8
  | .mulRV16 _ _ => 0x50#8
  | .mulRV32 _ _ => 0x51#8
  | .idivRR _ _ => 0x52#8
  | .idivRV8 _ _ => 0x53#8
  | .idivRV16 _ _ => 0x54#8
  | .idivRV32 _ _ => 0x55#8
  | .modRR _ _ => 0x56#8
  | .modRV8 _ _ => 0x57#8
  | .modRV16 _ _ => 0x58#8
  | .modRV32 _ _ => 0x59#8
  | .incR _ => 0x5A#8
  | .decR _ => 0x5B#8
  | .bzR _ => 0x5C#8
  | .bzV32 _ => 0x5D#8
  | .bnzR _ => 0x5E#8
  | .bnzV32 _ => 0x5F#8
  | .bnegR _ => 0x60#8
  | .bnegV32 _ => 0x61#8
  | .bposR _ => 0x62#8
  | .bposV32 _ => 0x63#8
  | .bgtR _ => 0x64#8
  | .bgtV32 _ => 0x65#8
  | .bgteR _ => 0x66#8
  | .bgteV32 _ => 0x67#8
  | .bltR _ => 0x68#8
  | .bltV32 _ => 0x69#8
  | .blteR _ => 0x6A#8
  | .blteV32 _ => 0x6B#8
  | .bvR _ => 0x6C#8
  | .bvV32 _ => 0x6D#8
  | .bnvR _ => 0x6E#8
  | .bnvV32 _ => 0x6F#8
  | .jmpR _ => 0x70#8
  | .jmpV32 _ => 0x71#8
  | .jsrR _ => 0x72#8
  | .jsrV32 _ => 0x73#8
  | .ret => 0x74#8
  | .sysR _ => 0x75#8
  | .sysV8 _ => 0x76#8
  | .iret => 0x77#8
  | .pushbR _ => 0x78#8
  | .pushbV8 _ => 0x79#8
  | .pushwR _ => 0x7A#8
  | .pushwV16 _ => 0x7B#8
  | .pushdR _ => 0x7C#8
  | .pushdV32 _ => 0x7D#8
  | .pushA => 0x7E#8
  | .popbR _ => 0x7F#8
  | .popwR _ => 0x80#8
  | .popdR _ => 0x81#8
  | .popA => 0x82#8
  | .popxR _ => 0x83#8
  | .popxV8 _ => 0x84#8
  | .popxV16 _ => 0x85#8
  | .sret => 0x86#8
  | .nop => 0x87#8
  | .halt => 0x88#8
  | .dbg => 0x89#8
  | .swapRR _ _ => 0x8A#8
  | .cmpR _ => 0x8B#8

/-- A 16-bit value as its bytes, least significant first (R77). -/
def bytes16 (v : BitVec 16) : List Byte := [v.extractLsb' 0 8, v.extractLsb' 8 8]

/-- A 32-bit value as its bytes, least significant first (R77). -/
def bytes32 (v : Word) : List Byte :=
  [v.extractLsb' 0 8, v.extractLsb' 8 8, v.extractLsb' 16 8, v.extractLsb' 24 8]

/-- The bytes of an operand that has bytes of its own (R101, R103). -/
def Operand.bytes : Operand → List Byte
  | .reg r => [0#4 ++ r.index]
  | .regInd r => [0#4 ++ r.index]
  | .imm8 v => [v]
  | .imm16 v => bytes16 v
  | .imm32 v => bytes32 v
  | .memInd addr => bytes32 addr

/-- The register an operand of a register kind names. -/
def Operand.register? : Operand → Option Reg
  | .reg r => some r
  | .regInd r => some r
  | _ => none

/-- The operand bytes of an instruction: two register kinds share one byte, operand 1 in the high nibble (R102); otherwise
the operands' own bytes stand in operand order (R103). -/
def operandBytes : List Operand → List Byte
  | [o1, o2] =>
    match o1.register?, o2.register? with
    | some r1, some r2 => [r1.index ++ r2.index]
    | _, _ => o1.bytes ++ o2.bytes
  | ops => (ops.map Operand.bytes).flatten

/-- The bytes of an instruction, at ascending addresses (R100, R103). -/
def encode (i : Instr) : List Byte := i.opcode :: operandBytes i.operands

/-- The number of bytes an operand takes when it does not share a pair byte (R101). -/
def OperandKind.size : OperandKind → Nat
  | .reg => 1
  | .regInd => 1
  | .imm8 => 1
  | .imm16 => 2
  | .imm32 => 4
  | .memInd => 4

/-- The encoded length in bytes of an instruction: 1 and its operand bytes (R100, R103). -/
def Instr.length (i : Instr) : Nat :=
  match i.operands.map Operand.kind with
  | [.reg, .reg] | [.reg, .regInd] | [.regInd, .reg] | [.regInd, .regInd] => 2
  | kinds => 1 + (kinds.map OperandKind.size).sum

/-- A row of the opcode map as the assembler's table has it (R111, R118). -/
structure Row where
  opcode : Byte
  mnemonic : Mnemonic
  kinds : List OperandKind
deriving DecidableEq, Repr

/-- The move family's rows of the opcode map (R111). -/
def opcodeRowsMove : List Row := [
  ⟨0x01#8, .mov, [.reg, .reg]⟩,
  ⟨0x02#8, .mov, [.reg, .imm8]⟩,
  ⟨0x03#8, .mov, [.reg, .imm16]⟩,
  ⟨0x04#8, .mov, [.reg, .imm32]⟩,
  ⟨0x05#8, .movb, [.reg, .regInd]⟩,
  ⟨0x06#8, .movb, [.reg, .memInd]⟩,
  ⟨0x07#8, .movw, [.reg, .regInd]⟩,
  ⟨0x08#8, .movw, [.reg, .memInd]⟩,
  ⟨0x09#8, .movd, [.reg, .regInd]⟩,
  ⟨0x0A#8, .movd, [.reg, .memInd]⟩,
  ⟨0x0B#8, .movb, [.regInd, .reg]⟩,
  ⟨0x0C#8, .movb, [.regInd, .imm8]⟩,
  ⟨0x0D#8, .movb, [.regInd, .regInd]⟩,
  ⟨0x0E#8, .movb, [.regInd, .memInd]⟩,
  ⟨0x0F#8, .movw, [.regInd, .reg]⟩,
  ⟨0x1A#8, .movw, [.regInd, .imm16]⟩,
  ⟨0x1B#8, .movw, [.regInd, .regInd]⟩,
  ⟨0x1C#8, .movw, [.regInd, .memInd]⟩,
  ⟨0x1D#8, .movd, [.regInd, .reg]⟩,
  ⟨0x1E#8, .movd, [.regInd, .imm32]⟩,
  ⟨0x1F#8, .movd, [.regInd, .regInd]⟩,
  ⟨0x20#8, .movd, [.regInd, .memInd]⟩,
  ⟨0x21#8, .movb, [.memInd, .reg]⟩,
  ⟨0x22#8, .movb, [.memInd, .imm8]⟩,
  ⟨0x23#8, .movb, [.memInd, .regInd]⟩,
  ⟨0x24#8, .movb, [.memInd, .memInd]⟩,
  ⟨0x25#8, .movw, [.memInd, .reg]⟩,
  ⟨0x26#8, .movw, [.memInd, .imm16]⟩,
  ⟨0x27#8, .movw, [.memInd, .regInd]⟩,
  ⟨0x28#8, .movw, [.memInd, .memInd]⟩,
  ⟨0x29#8, .movd, [.memInd, .reg]⟩,
  ⟨0x2A#8, .movd, [.memInd, .imm32]⟩,
  ⟨0x2B#8, .movd, [.memInd, .regInd]⟩,
  ⟨0x2C#8, .movd, [.memInd, .memInd]⟩,
  ⟨0x8A#8, .swap, [.reg, .reg]⟩]

/-- The logic family's rows of the opcode map (R111). -/
def opcodeRowsLogic : List Row := [
  ⟨0x2D#8, .or, [.reg, .reg]⟩,
  ⟨0x2E#8, .or, [.reg, .imm8]⟩,
  ⟨0x2F#8, .or, [.reg, .imm16]⟩,
  ⟨0x30#8, .or, [.reg, .imm32]⟩,
  ⟨0x31#8, .xor, [.reg, .reg]⟩,
  ⟨0x32#8, .xor, [.reg, .imm8]⟩,
  ⟨0x33#8, .xor, [.reg, .imm16]⟩,
  ⟨0x34#8, .xor, [.reg, .imm32]⟩,
  ⟨0x35#8, .and, [.reg, .reg]⟩,
  ⟨0x36#8, .and, [.reg, .imm8]⟩,
  ⟨0x37#8, .and, [.reg, .imm16]⟩,
  ⟨0x38#8, .and, [.reg, .imm32]⟩,
  ⟨0x39#8, .shl, [.reg, .reg]⟩,
  ⟨0x3A#8, .shl, [.reg, .imm8]⟩,
  ⟨0x3D#8, .shr, [.reg, .reg]⟩,
  ⟨0x3E#8, .shr, [.reg, .imm8]⟩,
  ⟨0x41#8, .not, [.reg]⟩]

/-- The arithmetic family's rows of the opcode map (R111). -/
def opcodeRowsArithmetic : List Row := [
  ⟨0x42#8, .add, [.reg, .reg]⟩,
  ⟨0x43#8, .add, [.reg, .imm8]⟩,
  ⟨0x44#8, .add, [.reg, .imm16]⟩,
  ⟨0x45#8, .add, [.reg, .imm32]⟩,
  ⟨0x46#8, .sub, [.reg, .reg]⟩,
  ⟨0x47#8, .sub, [.reg, .imm8]⟩,
  ⟨0x48#8, .sub, [.reg, .imm16]⟩,
  ⟨0x49#8, .sub, [.reg, .imm32]⟩,
  ⟨0x4A#8, .cmp, [.reg, .reg]⟩,
  ⟨0x4B#8, .cmp, [.reg, .imm8]⟩,
  ⟨0x4C#8, .cmp, [.reg, .imm16]⟩,
  ⟨0x4D#8, .cmp, [.reg, .imm32]⟩,
  ⟨0x4E#8, .mul, [.reg, .reg]⟩,
  ⟨0x4F#8, .mul, [.reg, .imm8]⟩,
  ⟨0x50#8, .mul, [.reg, .imm16]⟩,
  ⟨0x51#8, .mul, [.reg, .imm32]⟩,
  ⟨0x52#8, .idiv, [.reg, .reg]⟩,
  ⟨0x53#8, .idiv, [.reg, .imm8]⟩,
  ⟨0x54#8, .idiv, [.reg, .imm16]⟩,
  ⟨0x55#8, .idiv, [.reg, .imm32]⟩,
  ⟨0x56#8, .mod, [.reg, .reg]⟩,
  ⟨0x57#8, .mod, [.reg, .imm8]⟩,
  ⟨0x58#8, .mod, [.reg, .imm16]⟩,
  ⟨0x59#8, .mod, [.reg, .imm32]⟩,
  ⟨0x5A#8, .inc, [.reg]⟩,
  ⟨0x5B#8, .dec, [.reg]⟩,
  ⟨0x8B#8, .cmp, [.reg]⟩]

/-- The branch family's rows of the opcode map (R111). -/
def opcodeRowsBranch : List Row := [
  ⟨0x5C#8, .bz, [.reg]⟩,
  ⟨0x5D#8, .bz, [.imm32]⟩,
  ⟨0x5E#8, .bnz, [.reg]⟩,
  ⟨0x5F#8, .bnz, [.imm32]⟩,
  ⟨0x60#8, .bneg, [.reg]⟩,
  ⟨0x61#8, .bneg, [.imm32]⟩,
  ⟨0x62#8, .bpos, [.reg]⟩,
  ⟨0x63#8, .bpos, [.imm32]⟩,
  ⟨0x64#8, .bgt, [.reg]⟩,
  ⟨0x65#8, .bgt, [.imm32]⟩,
  ⟨0x66#8, .bgte, [.reg]⟩,
  ⟨0x67#8, .bgte, [.imm32]⟩,
  ⟨0x68#8, .blt, [.reg]⟩,
  ⟨0x69#8, .blt, [.imm32]⟩,
  ⟨0x6A#8, .blte, [.reg]⟩,
  ⟨0x6B#8, .blte, [.imm32]⟩,
  ⟨0x6C#8, .bv, [.reg]⟩,
  ⟨0x6D#8, .bv, [.imm32]⟩,
  ⟨0x6E#8, .bnv, [.reg]⟩,
  ⟨0x6F#8, .bnv, [.imm32]⟩,
  ⟨0x70#8, .jmp, [.reg]⟩,
  ⟨0x71#8, .jmp, [.imm32]⟩,
  ⟨0x72#8, .jsr, [.reg]⟩,
  ⟨0x73#8, .jsr, [.imm32]⟩,
  ⟨0x74#8, .ret, []⟩]

/-- The stack family's rows of the opcode map (R111). -/
def opcodeRowsStack : List Row := [
  ⟨0x78#8, .pushb, [.reg]⟩,
  ⟨0x79#8, .pushb, [.imm8]⟩,
  ⟨0x7A#8, .pushw, [.reg]⟩,
  ⟨0x7B#8, .pushw, [.imm16]⟩,
  ⟨0x7C#8, .pushd, [.reg]⟩,
  ⟨0x7D#8, .pushd, [.imm32]⟩,
  ⟨0x7E#8, .pushA, []⟩,
  ⟨0x7F#8, .popb, [.reg]⟩,
  ⟨0x80#8, .popw, [.reg]⟩,
  ⟨0x81#8, .popd, [.reg]⟩,
  ⟨0x82#8, .popA, []⟩,
  ⟨0x83#8, .popx, [.reg]⟩,
  ⟨0x84#8, .popx, [.imm8]⟩,
  ⟨0x85#8, .popx, [.imm16]⟩]

/-- The misc family's rows of the opcode map (R111). -/
def opcodeRowsMisc : List Row := [
  ⟨0x75#8, .sys, [.reg]⟩,
  ⟨0x76#8, .sys, [.imm8]⟩,
  ⟨0x77#8, .iret, []⟩,
  ⟨0x86#8, .sret, []⟩,
  ⟨0x87#8, .nop, []⟩,
  ⟨0x88#8, .halt, []⟩,
  ⟨0x89#8, .dbg, []⟩]

/-- The opcode map (R111). -/
def opcodeMap : List Row :=
  opcodeRowsMove ++ opcodeRowsLogic ++ opcodeRowsArithmetic ++ opcodeRowsBranch ++ opcodeRowsStack ++ opcodeRowsMisc

/-- The assembler's encoder (R118): the row is found by the mnemonic, an alias by its canonical name (R116), and by the
operand kinds alone, and the carried values fill the operand bytes (log entry 12). -/
def assemble (x : AsmInstr) : Option (List Byte) :=
  (opcodeMap.find? fun row => row.mnemonic == x.mnemonic.canonical && row.kinds == x.operands.map Operand.kind).map
    fun row => row.opcode :: operandBytes x.operands

/-- Byte `k` of an instruction given as one number whose bit 0 is the least significant bit of its first byte. -/
def byteOfNat (w k : Nat) : Byte := BitVec.ofNat 8 (w >>> (8 * k))

/-- The instruction the decoder reads from the bits of `w` below `nbits`, every bit above them zero: byte `k` is bits
`8k + 7` to `8k`. -/
def decodeTableWord (nbits w : Nat) : Option Instr :=
  match decode fun k => some (byteOfNat (w % 2 ^ nbits) k) with
  | .ok i => some i
  | .error _ => none

end Sys2Proof
end

