-- ==== Sys2Proof/Config.lean ====
section
/-! DEFINITION. The constants of the machine (spec/00_scope.md R5, R7) and the values the model names for the platform
parameters of R6 in the state after reset. The platform parameters themselves (MEM_SIZE, DEVICES, CPU_BASE, EXT_SEM) are
fields of State, so that no claim about every state fixes one; what their behaviour is where the spec leaves it open
(ELAPSED, the devices, EXT_SEM) is the opaque constants of Sys2Proof/Machine/Platform.lean. -/

namespace Sys2Proof.Config

/-- PHYSICAL_MEMORY_LIMIT (R5): the first address that is not physical memory, and the offset register's base. -/
def physicalMemoryLimit : Nat := 0xF0000000

/-- The first address above the offset register's four bytes (R5, R50). -/
def offsetEnd : Nat := 0xF0000004

/-- DEVICE_BASE_MIN (R5): the lowest legal base of a device. -/
def deviceBaseMin : Nat := 0xF0000100

/-- One more than the highest bus address (R34, R58). -/
def addressSpace : Nat := 0x100000000

/-- The largest legal MEM_SIZE (R6): one more than the largest physical index an access can form. -/
def memSizeMax : Nat := 0x1EFFFFFFF

/-- MEM_SIZE in the state after reset. DESIGN CHOICE (log entry 1): the spec gives MEM_SIZE no default; this is the size
its own test vectors use. Unsafe if a claim about a run leans on it. -/
def defaultMemSize : Nat := 0x10000

/-- CPU_BASE's default (R6, R68). -/
def defaultCpuBase : Word := 0xF0000100#32

/-- What a byte of physical memory that nothing has written holds (R41, R352). -/
def unwrittenByte : Byte := 0#8

end Sys2Proof.Config
end

