-- ==== Sys2Proof/Machine/State.lean ====
section
/-! DEFINITION. Everything the machine remembers from one global step to the next (spec/10_state.md), as plain data, and
the state right after reset (R41, R350). Functions over it are in Sys2Proof/Machine/Ops.lean. -/

namespace Sys2Proof.Machine

/-- The six fault kinds (spec/60_exceptions.md R320). A fault is recorded in the status latch (R326); it is a state of the
machine and not an end of the model, so a step of this model that raises one answers a next state. None is answered as
`Host.Outcome.fault` (DEDUCED, safe: log entry 8). -/
inductive Fault where
  /-- Raised by every bus access that no RAM byte, offset byte or device window covers (R321); `addr` is the failing byte
  address, 2^32 or more when a composite access ran off the top (R58). Safe: it is what the spec says happens. -/
  | outOfRange (addr : Nat)
  /-- Raised by `addDevice` and `installCpu` at construction, to the integrator; a running machine never raises it (R322):
  the invariant `State.Inv` says that no status latch holds it. Safe: the spec's own. -/
  | invalidMapping (base : Word) (size : Nat)
  /-- Raised by instruction fetch on an unassigned opcode or a lone register byte above 0x0F (R323). Safe: the spec's own. -/
  | illegalInstruction (op : Byte)
  /-- Raised by `writeOp` on an immediate destination (R156); no instruction of the opcode map reaches it (R332). Safe. -/
  | invalidDestination
  /-- Raised by the eight `idiv` and `mod` forms on a zero divisor; `pc` is the instruction's address (R324). Safe. -/
  | divideByZero (pc : Word)
  /-- Raised by `sys`, `iret` and `sret` when EXT_SEM is none (R325); `op` is the opcode byte. Safe. -/
  | extensionNotImplemented (op : Byte)
deriving DecidableEq, Repr, Inhabited

/-- Why the model answers no next state. -/
inductive Refusal where
  /-- An instruction without a meaning, rejected by name in its arm of `exec`. No arm of this model answers it. Safe. -/
  | notModelled (mnemonic : String)
  /-- Answered by `globalStep` when the device table is not well formed: no CPU or two, a CPU without a base, a base below
  the device region, a window past the top of the address space. The spec states its rules for well-formed tables only (R69) and calls the
  others a configuration to refuse (spec/93_implementation_defined.md U11, U12, U14). Safe: no claim is provable there. -/
  | illFormedDeviceTable
deriving DecidableEq, Repr

/-- The phase of a global step a fault was raised in (R326). -/
inductive Phase where
  | poll
  | apply
deriving DecidableEq, Repr, Inhabited

/-- The status latch (R38). -/
inductive Status where
  | run
  | halt
  | fault (kind : Fault) (phase : Phase)
deriving DecidableEq, Repr, Inhabited

/-- The register file (R20): sixteen 32-bit registers, index 0 to 15 in this order. -/
structure RegFile where
  a : Word
  b : Word
  c : Word
  d : Word
  e : Word
  f : Word
  g : Word
  h : Word
  i : Word
  j : Word
  k : Word
  l : Word
  fp : Word
  sp : Word
  pc : Word
  fl : Word
deriving DecidableEq, Repr, Inhabited

/-- A deferred command (spec/20_memory.md R74). -/
inductive Command where
  | writeByte (addr : Word) (val : BitVec 8)
  | writeWord16 (addr : Word) (val : BitVec 16)
  | writeDword32 (addr : Word) (val : BitVec 32)
deriving DecidableEq, Repr, Inhabited

/-- The own state of a device that is not the CPU: any plain data, written as bytes (R35, R66). -/
abbrev DeviceState := List Byte

/-- A device of the table (R60, R62 to R66). The CPU's window has size 0 (R68). Any other device is one of the platform's
(R6 DEVICES): `id` says which behaviour of Sys2Proof/Machine/Platform.lean it has, `size` is its footprint, a u32 that nothing changes
(R64). -/
inductive Device where
  | cpu
  | other (id : Nat) (size : Word) (state : DeviceState)
deriving DecidableEq, Repr, Inhabited

/-- An entry of the device table: a mapped device has a base, an unmapped one has none (R60). -/
structure DeviceEntry where
  base : Option Word
  device : Device
deriving DecidableEq, Repr, Inhabited

/-- Physical memory: (physical index, byte), indexes strictly rising, no entry equal to `Config.unwrittenByte`
(log entry 9). -/
abbrev Memory := List Host.Cell

/-- The whole machine: the CPU's registers, the bus and the status latch. -/
structure State where
  /-- The sixteen registers, PC and FL among them (R20). -/
  regs : RegFile
  /-- The contents of physical memory, by physical index (R34, R52). -/
  ram : Memory
  /-- MEM_SIZE, a platform parameter fixed at construction (R6). -/
  memSize : Nat
  /-- The offset register (R31, R55). -/
  offset : Word
  /-- The device table in registration order, each device with its own state (R35, R60). -/
  devices : List DeviceEntry
  /-- The command queue of the global step in progress (R36), oldest first. Empty between global steps. -/
  queue : List Command
  /-- The status latch (R38). -/
  status : Status
  /-- EXT_SEM, a platform parameter (R305): none, or which extension of Sys2Proof/Machine/Platform.lean is installed. -/
  ext : Option Nat
  /-- The model's own: how many ELAPSED draws have been made (R72; log entry 3). No instruction reads it. -/
  draws : Nat
deriving DecidableEq, Repr

/-- The outcome of an instruction or a step. -/
abbrev Out := Host.Outcome State Fault Refusal

/-- All sixteen registers zero (R41, decision D4 of the spec). -/
def RegFile.zero : RegFile where
  a := 0
  b := 0
  c := 0
  d := 0
  e := 0
  f := 0
  g := 0
  h := 0
  i := 0
  j := 0
  k := 0
  l := 0
  fp := 0
  sp := 0
  pc := 0
  fl := 0

/-- The machine right after reset with the default platform (R41, R350): registers and RAM zero, offset zero, the CPU the
only device, no extension, status RUN. `memSize` is the model's choice (log entry 1). -/
def State.reset : State where
  regs := RegFile.zero
  ram := []
  memSize := Config.defaultMemSize
  offset := 0
  devices := [⟨some Config.defaultCpuBase, .cpu⟩]
  queue := []
  status := .run
  ext := none
  draws := 0

end Sys2Proof.Machine
end

