-- ==== Sys2Proof/Machine/Flags.lean ====
section
/-! DEFINITION. The flags word FL and every flag computation of the spec (spec/10_state.md R27 to R29, spec/40_execute.md
R146, R149, spec/43_arithmetic.md R227 to R229). -/

namespace Sys2Proof.Machine

/-- The eight flags (R27). -/
inductive Flag where
  | y
  | v
  | z
  | s
  | gt
  | lt
  | p
  | t
deriving DecidableEq, Repr

/-- The bit of FL a flag stands in (R27). -/
def Flag.bit : Flag → Nat
  | .y => 0
  | .v => 1
  | .z => 2
  | .s => 3
  | .gt => 4
  | .lt => 5
  | .p => 6
  | .t => 7

/-- A flag of a flags word. -/
def getFlag (fl : Word) (f : Flag) : Bool := fl.getLsbD f.bit

/-- A flags word with one flag replaced; every other bit is kept (R29). -/
def setFlag (fl : Word) (f : Flag) (b : Bool) : Word :=
  if b then fl ||| (1#32 <<< f.bit) else fl &&& ~~~(1#32 <<< f.bit)

end Sys2Proof.Machine

namespace Sys2Proof

/-- The number of bits of a width (R125). -/
def Width.bits : Width → Nat
  | .w8 => 8
  | .w16 => 16
  | .w32 => 32

/-- The number of bytes of a width. -/
def Width.bytes : Width → Nat
  | .w8 => 1
  | .w16 => 2
  | .w32 => 4

/-- `zext_32(trunc_w(v))` (R8). -/
def Width.trunc (w : Width) (v : Word) : Word := (v.setWidth w.bits).setWidth 32

end Sys2Proof

namespace Sys2Proof.Machine

/-- `WriteFlags(v, w)` (R146): Z, P and S from the value truncated to the width, Y, V, GT and LT cleared, T and bits 31 to 8
kept. -/
def writeFlags (fl : Word) (v : Word) (w : Width) : Word :=
  let t := w.trunc v
  let fl := setFlag fl .z (t == 0)
  let fl := setFlag fl .p (!t.getLsbD 0)
  let fl := setFlag fl .s (t.getLsbD (w.bits - 1))
  let fl := setFlag fl .y false
  let fl := setFlag fl .v false
  let fl := setFlag fl .gt false
  setFlag fl .lt false

/-- `WriteFlags` and then Y and V replaced: the flags of `WriteOpYV` (R149). -/
def writeFlagsYV (fl : Word) (v : Word) (w : Width) (y ov : Bool) : Word :=
  setFlag (setFlag (writeFlags fl v w) .y y) .v ov

/-- An integer lies in [-2^31, 2^31 - 1] (R228). -/
def fitsSigned32 (n : Int) : Bool := decide (-2147483648 ≤ n ∧ n ≤ 2147483647)

/-- A 32-bit result with its carry and its signed overflow (R228). -/
structure ArithResult where
  value : Word
  carry : Bool
  overflow : Bool
deriving DecidableEq, Repr

/-- `add` and `inc` (R228). -/
def addWord (a b : Word) : ArithResult where
  value := a + b
  carry := decide (2 ^ 32 ≤ a.toNat + b.toNat)
  overflow := !fitsSigned32 (a.toInt + b.toInt)

/-- `sub` and `dec` (R228). -/
def subWord (a b : Word) : ArithResult where
  value := a - b
  carry := decide (a.toNat < b.toNat)
  overflow := !fitsSigned32 (a.toInt - b.toInt)

/-- `mul` (R228). -/
def mulWord (a b : Word) : ArithResult where
  value := a * b
  carry := decide (2 ^ 32 ≤ a.toNat * b.toNat)
  overflow := !fitsSigned32 (a.toInt * b.toInt)

/-- The flags after `cmp` (R228): Z, P, S of the difference, Y borrow, V signed overflow, GT and LT unsigned. -/
def compareFlags (fl a b : Word) : Word :=
  let fl := writeFlagsYV fl (a - b) .w32 (subWord a b).carry (subWord a b).overflow
  let fl := setFlag fl .gt (decide (b.toNat < a.toNat))
  setFlag fl .lt (decide (a.toNat < b.toNat))

end Sys2Proof.Machine
end

