-- ==== Sys2Proof/Machine/Platform.lean ====
section
/-! DEFINITION. What the platform decides and the spec leaves open: opaque constants of Config, with no value a proof can
see, so that a claim holds for every behaviour the spec's contract allows (spec/00_scope.md R6, spec/20_memory.md R62 to
R66, R72, spec/46_misc.md R305; log entries 2 to 5). Each is applied to plain data of State, and its result type is the
contract: a device's `get` changes nothing, its `set` and `step` change only its own state, and its `step` only appends to
the queue (R66). -/

namespace Sys2Proof.Machine

/-- The read-only view of the bus a device or an extension has during a global step: `BusGet` (R53, R73). -/
abbrev BusView := Word → Except Fault Byte

/-- What an extension answers (R305): the sixteen registers, the commands it appends, and whether it was a taken control
transfer. -/
structure ExtResult where
  regs : RegFile
  commands : List Command
  transferred : Bool
deriving DecidableEq, Repr, Inhabited

/-- A read of the bus by a device or an extension: a byte, a 16-bit or a 32-bit access (R57). -/
structure BusRead where
  addr : Word
  width : Width
deriving DecidableEq, Repr, Inhabited

/-- The fault an extension answers (R305). OutOfRange is not among them, since only a read raises it (R321): it comes from the
reads of `Config.extReads`. Nor are InvalidMapping, which a running machine never raises (R322), and InvalidDestination,
which no byte sequence raises (R332). -/
inductive ExtFault where
  | illegalInstruction (op : Byte)
  | divideByZero (pc : Word)
  | extensionNotImplemented (op : Byte)
deriving DecidableEq, Repr, Inhabited

/-- The fault of the kind (R320). -/
def ExtFault.toFault : ExtFault → Fault
  | .illegalInstruction op => .illegalInstruction op
  | .divideByZero pc => .divideByZero pc
  | .extensionNotImplemented op => .extensionNotImplemented op

end Sys2Proof.Machine

namespace Sys2Proof.Config

/-- The elapsed time handed to every device at the n-th draw (R72): free, under no law. -/
opaque elapsed (n : Nat) : Nat

/-- `get(local_addr)` of the device behaviour `id` in state `st` (R62). -/
opaque deviceGet (id : Nat) (st : Machine.DeviceState) (localAddr : Nat) : Byte

/-- `set(local_addr, byte)` of the device behaviour `id`: the device's new state (R63). -/
opaque deviceSet (id : Nat) (st : Machine.DeviceState) (localAddr : Nat) (b : Byte) : Machine.DeviceState

/-- The reads that the step of the device behaviour `id` makes, in order (R65). The first of them that raises `OutOfRange`
ends the step, and nothing else can make a device's step raise (R66, R321). -/
opaque deviceReads (id : Nat) (st : Machine.DeviceState) (view : Machine.BusView) (elapsed : Nat) : List Machine.BusRead

/-- `step(bus_view, elapsed, queue)` of the device behaviour `id` where none of its reads raises: its new state and the
commands it appends (R65, R66). -/
opaque deviceStep (id : Nat) (st : Machine.DeviceState) (view : Machine.BusView) (elapsed : Nat) :
    Machine.DeviceState × List Machine.Command

/-- The reads that the extension `id` makes, in order (R305). The first of them that raises `OutOfRange` is the extension's
fault, and nothing else can make it raise that kind (R321). -/
opaque extReads (id : Nat) (regs : Machine.RegFile) (view : Machine.BusView) (i : Instr) : List Machine.BusRead

/-- `EXT_SEM` of the extension `id` where none of its reads raises: a function of the sixteen registers, the bus view and the
decoded instruction, to its answer or to a fault (R305). -/
opaque extSem (id : Nat) (regs : Machine.RegFile) (view : Machine.BusView) (i : Instr) :
    Except Machine.ExtFault Machine.ExtResult

end Sys2Proof.Config
end

