-- ==== Sys2Proof/Machine/Ops.lean ====
section
/-! DEFINITION. The named operations over registers, memory, the bus, the command queue and the status latch
(spec/10_state.md, spec/20_memory.md), and taking a fault (spec/60_exceptions.md R326). -/

namespace Sys2Proof.Machine

/-! ### Registers -/

/-- `x[i]` (R20). -/
def RegFile.get (f : RegFile) : Reg → Word
  | .a => f.a
  | .b => f.b
  | .c => f.c
  | .d => f.d
  | .e => f.e
  | .f => f.f
  | .g => f.g
  | .h => f.h
  | .i => f.i
  | .j => f.j
  | .k => f.k
  | .l => f.l
  | .fp => f.fp
  | .sp => f.sp
  | .pc => f.pc
  | .fl => f.fl

/-- `x[i] <- v`: all 32 bits of one register, nothing else (R22). -/
def RegFile.set (f : RegFile) (r : Reg) (v : Word) : RegFile :=
  match r with
  | .a => { f with a := v }
  | .b => { f with b := v }
  | .c => { f with c := v }
  | .d => { f with d := v }
  | .e => { f with e := v }
  | .f => { f with f := v }
  | .g => { f with g := v }
  | .h => { f with h := v }
  | .i => { f with i := v }
  | .j => { f with j := v }
  | .k => { f with k := v }
  | .l => { f with l := v }
  | .fp => { f with fp := v }
  | .sp => { f with sp := v }
  | .pc => { f with pc := v }
  | .fl => { f with fl := v }

/-- The value of a register (R10, R20). -/
def State.reg (s : State) (r : Reg) : Word := s.regs.get r

/-- A raw register write, with no effect on flags (R22). -/
def State.setReg (s : State) (r : Reg) (v : Word) : State := { s with regs := s.regs.set r v }

/-- All sixteen registers replaced (R305). -/
def State.setRegFile (s : State) (f : RegFile) : State := { s with regs := f }

/-- `pc <- (x[14] + len) mod 2^32` (R25, R152). -/
def State.advance (s : State) (len : Nat) : State := s.setReg .pc (s.reg .pc + BitVec.ofNat 32 len)

/-- The status latch replaced (R38). -/
def State.setStatus (s : State) (st : Status) : State := { s with status := st }

/-! ### Taking a fault -/

/-- A fault taken (R326): the status records the kind and the phase, the rest of the command queue is discarded (R76), and
nothing else changes: no register is saved, none is changed, control goes nowhere. There is no return from a fault and no
other exception to take (R327, R333, R334). -/
def State.takeFault (s : State) (f : Fault) (phase : Phase) : State :=
  { s with status := .fault f phase, queue := [] }

/-- The status is FAULT. -/
def Status.isFault : Status → Bool
  | .fault _ _ => true
  | .run => false
  | .halt => false

/-! ### Physical memory -/

/-- The byte at a physical index; an index that is not listed holds `Config.unwrittenByte` (R352). -/
def Memory.read : Memory → Nat → Byte
  | [], _ => Config.unwrittenByte
  | (j, c) :: m, i => if i = j then c else if i < j then Config.unwrittenByte else Memory.read m i

/-- The byte at a physical index replaced, in canonical form: indexes strictly rising, the unwritten byte not listed. -/
def Memory.write : Memory → Nat → Byte → Memory
  | [], i, b => if b = Config.unwrittenByte then [] else [(i, b)]
  | (j, c) :: m, i, b =>
    if i < j then (if b = Config.unwrittenByte then (j, c) :: m else (i, b) :: (j, c) :: m)
    else if i = j then (if b = Config.unwrittenByte then m else (i, b) :: m)
    else (j, c) :: Memory.write m i b

/-- Every listed index is at least `lo`, the indexes rise strictly, and no listed byte is the unwritten byte. -/
def Memory.wfFrom : Nat → Memory → Bool
  | _, [] => true
  | lo, (j, c) :: m => decide (lo ≤ j) && !(c == Config.unwrittenByte) && Memory.wfFrom (j + 1) m

/-- The canonical form of memory. -/
def Memory.wf (m : Memory) : Bool := Memory.wfFrom 0 m

/-- Every listed index is below `size`. -/
def Memory.below (m : Memory) (size : Nat) : Bool := m.all fun cell => decide (cell.1 < size)

/-! ### The offset register -/

/-- Byte `k` of a word (R55). -/
def getByte (w : Word) (k : Nat) : Byte := w.extractLsb' (8 * k) 8

/-- A word with byte `k` replaced; the other 24 bits keep their value (R54). -/
def setByte (w : Word) (k : Nat) (b : Byte) : Word :=
  (w &&& ~~~(0xFF#32 <<< (8 * k))) ||| (b.setWidth 32 <<< (8 * k))

/-! ### Devices and routing -/

/-- `size()` (R64); the CPU reports size 0 (R68). -/
def Device.size : Device → Nat
  | .cpu => 0
  | .other _ size _ => size.toNat

/-- The device is the CPU. -/
def Device.isCpu : Device → Bool
  | .cpu => true
  | .other _ _ _ => false

/-- The entry is mapped and its window covers the address (R53). -/
def DeviceEntry.covers (d : DeviceEntry) (a : Nat) : Bool :=
  match d.base with
  | none => false
  | some base => decide (base.toNat ≤ a) && decide (a - base.toNat < d.device.size)

/-- The address inside a device's window (R61). -/
def DeviceEntry.localAddr (d : DeviceEntry) (a : Nat) : Nat :=
  match d.base with
  | none => a
  | some base => a - base.toNat

/-- `dev.get` at a bus address its window covers (R61, R62). No address routes to the CPU (R32). -/
def DeviceEntry.get (d : DeviceEntry) (a : Nat) : Byte :=
  match d.device with
  | .cpu => Config.unwrittenByte
  | .other id _ st => Config.deviceGet id st (d.localAddr a)

/-- `dev.set` at a bus address its window covers (R61, R63). -/
def DeviceEntry.set (d : DeviceEntry) (a : Nat) (b : Byte) : DeviceEntry :=
  match d.device with
  | .cpu => d
  | .other id size st => { d with device := .other id size (Config.deviceSet id st (d.localAddr a) b) }

/-- The first entry, in registration order, whose window covers the address, is read (R53, R60). -/
def deviceRead : List DeviceEntry → Nat → Option Byte
  | [], _ => none
  | d :: ds, a => if d.covers a then some (d.get a) else deviceRead ds a

/-- The first entry, in registration order, whose window covers the address, is written (R54, R60). -/
def deviceWrite : List DeviceEntry → Nat → Byte → Option (List DeviceEntry)
  | [], _, _ => none
  | d :: ds, a, b => if d.covers a then some (d.set a b :: ds) else (deviceWrite ds a b).map (d :: ·)

/-! ### Byte accesses of the bus -/

/-- `BusGet(a)` (R53). -/
def busGet (s : State) (a : Nat) : Except Fault Byte :=
  if a < Config.physicalMemoryLimit then
    if a + s.offset.toNat < s.memSize then .ok (s.ram.read (a + s.offset.toNat)) else .error (.outOfRange a)
  else if a < Config.offsetEnd then .ok (getByte s.offset (a - Config.physicalMemoryLimit))
  else if a < Config.deviceBaseMin then .error (.outOfRange a)
  else
    match deviceRead s.devices a with
    | some b => .ok b
    | none => .error (.outOfRange a)

/-- `BusSet(a, b)` (R54): a write that raises writes nothing. -/
def busSet (s : State) (a : Nat) (b : Byte) : Except Fault State :=
  if a < Config.physicalMemoryLimit then
    if a + s.offset.toNat < s.memSize then .ok { s with ram := s.ram.write (a + s.offset.toNat) b }
    else .error (.outOfRange a)
  else if a < Config.offsetEnd then .ok { s with offset := setByte s.offset (a - Config.physicalMemoryLimit) b }
  else if a < Config.deviceBaseMin then .error (.outOfRange a)
  else
    match deviceWrite s.devices a b with
    | some ds => .ok { s with devices := ds }
    | none => .error (.outOfRange a)

/-- The view of the bus a device or an extension has (R73). -/
def busView (s : State) : BusView := fun a => busGet s a.toNat

/-! ### Composite accesses -/

/-- One byte of a composite read: an address past the top of the address space does not wrap (R57, R58). -/
def byteAt (s : State) (a : Nat) : Except Fault Byte :=
  if a < Config.addressSpace then busGet s a else .error (.outOfRange a)

/-- `n` bytes from ascending addresses (R57). -/
def readBytes (s : State) (a : Nat) : Nat → Except Fault (List Byte)
  | 0 => .ok []
  | n + 1 => do
    let b ← byteAt s a
    let bs ← readBytes s (a + 1) n
    return b :: bs

/-- Bytes as a 32-bit value, the first least significant (R57, R77). -/
def leWord : List Byte → Word
  | [] => 0
  | b :: bs => (leWord bs <<< 8) ||| b.setWidth 32

/-- `MemRead(addr, n)` (R57), zero-extended to 32 bits. -/
def memRead (s : State) (addr : Nat) (n : Nat) : Except Fault Word := do
  return leWord (← readBytes s addr n)

/-- The fault of the first of these reads that raises, if one does (R57, R321). -/
def firstFault (s : State) : List BusRead → Option Fault
  | [] => none
  | r :: rs =>
    match memRead s r.addr.toNat r.width.bytes with
    | .ok _ => firstFault s rs
    | .error f => some f

/-- `BusWrite` of the bytes at ascending addresses (R59): the state after the bytes written, and the fault that stopped the
write, if one did. Each byte is routed with the offset as it then stands; a byte that raises leaves the earlier ones
written (R59, R75). -/
def busWrite (s : State) (a : Nat) : List Byte → State × Option Fault
  | [] => (s, none)
  | b :: bs =>
    if a < Config.addressSpace then
      match busSet s a b with
      | .error f => (s, some f)
      | .ok s' => busWrite s' (a + 1) bs
    else (s, some (.outOfRange a))

/-! ### Deferred commands -/

/-- The address a command writes at (R74). -/
def Command.addr : Command → Word
  | .writeByte addr _ => addr
  | .writeWord16 addr _ => addr
  | .writeDword32 addr _ => addr

/-- The bytes a command writes, least significant first (R59, R77). -/
def Command.bytes : Command → List Byte
  | .writeByte _ v => [v]
  | .writeWord16 _ v => [v.extractLsb' 0 8, v.extractLsb' 8 8]
  | .writeDword32 _ v => [v.extractLsb' 0 8, v.extractLsb' 8 8, v.extractLsb' 16 8, v.extractLsb' 24 8]

/-- The command of a store of the width's low bits of a value (R74). -/
def Command.store (addr : Word) (w : Width) (v : Word) : Command :=
  match w with
  | .w8 => .writeByte addr (v.setWidth 8)
  | .w16 => .writeWord16 addr (v.setWidth 16)
  | .w32 => .writeDword32 addr v

/-- Commands appended to the queue of the step (R74). -/
def State.enqueue (s : State) (cs : List Command) : State := { s with queue := s.queue ++ cs }

/-- `MemWrite(addr, n, v)` (R74): the command is queued; appending never faults. -/
def State.memWrite (s : State) (addr : Word) (w : Width) (v : Word) : State := s.enqueue [Command.store addr w v]

/-- The apply phase (R70, R75): the commands in the order appended, each completely before the next, each byte routed with
the offset and the table of that moment; a fault drops the rest (R76). -/
def applyQueue : List Command → State → State
  | [], s => s
  | c :: cs, s =>
    match busWrite s c.addr.toNat c.bytes with
    | (s', none) => applyQueue cs s'
    | (s', some f) => s'.takeFault f .apply

/-! ### The stack and the end of an instruction -/

/-- `Push_n(v)` (R285): SP moves down by the width's bytes, then the store at the new SP is queued. -/
def State.pushValue (s : State) (w : Width) (v : Word) : State :=
  let sp := s.reg .sp - BitVec.ofNat 32 w.bytes
  (s.setReg .sp sp).memWrite sp w v

/-- The end of an instruction that is no taken control transfer: PC advances by the instruction's length (R152); a fault its
rule raised is taken, with nothing changed (R142). -/
def finish (len : Nat) (s : State) : Except Fault State → Out
  | .ok s' => .next (s'.advance len)
  | .error f => .next (s.takeFault f .poll)

/-- The end of a taken control transfer: no advance (R258); a fault its rule raised is taken, with nothing changed (R142). -/
def transfer (s : State) : Except Fault State → Out
  | .ok s' => .next s'
  | .error f => .next (s.takeFault f .poll)

end Sys2Proof.Machine
end

