-- ==== Sys2Proof/Machine/Operands.lean ====
section
/-! DEFINITION. Reading and writing an operand (spec/40_execute.md R144 to R151): every operand kind of the machine. -/

namespace Sys2Proof.Machine

/-- `ReadOp(o)` (R144): 32 bits whatever the instruction's width; a memory operand is a four-byte read (R145). -/
def readOp (o : Operand) (s : State) : Except Fault Word :=
  match o with
  | .reg r => .ok (s.reg r)
  | .regInd r => memRead s (s.reg r).toNat 4
  | .imm8 v => .ok (v.setWidth 32)
  | .imm16 v => .ok (v.setWidth 32)
  | .imm32 v => .ok v
  | .memInd addr => memRead s addr.toNat 4

/-- The shape of `WriteOp` and `WriteOpYV` (R147, R149), `flags` being the flags word after the update. A register-direct
PC is written with no flag effect (R148); any other destination has the flag update first, so that FL as the destination
ends equal to the value (R30) and the address of `[FL]` is FL after the update (R151). A register is written whole (R150). -/
def writeOpWith (flags : Word) (o : Operand) (v : Word) (w : Width) (s : State) : Except Fault State :=
  match o with
  | .imm8 _ => .error .invalidDestination
  | .imm16 _ => .error .invalidDestination
  | .imm32 _ => .error .invalidDestination
  | .reg r =>
    if r = .pc then .ok (s.setReg .pc (w.trunc v))
    else .ok ((s.setReg .fl flags).setReg r (w.trunc v))
  | .regInd r =>
    let s' := s.setReg .fl flags
    .ok (s'.memWrite (s'.reg r) w (w.trunc v))
  | .memInd addr => .ok ((s.setReg .fl flags).memWrite addr w (w.trunc v))

/-- `WriteOp(o, v, w)` (R147). -/
def writeOp (o : Operand) (v : Word) (w : Width) (s : State) : Except Fault State :=
  writeOpWith (writeFlags (s.reg .fl) v w) o v w s

/-- `WriteOpYV(o, v, w, y, ov)` (R149). -/
def writeOpYV (o : Operand) (v : Word) (w : Width) (y ov : Bool) (s : State) : Except Fault State :=
  writeOpWith (writeFlagsYV (s.reg .fl) v w y ov) o v w s

end Sys2Proof.Machine
end

