-- ==== Sys2Proof/Machine/Arithmetic.lean ====
section
/-! DEFINITION. The arithmetic and compare instructions (spec/43_arithmetic.md). Results, carries and overflows are in
Sys2Proof/Machine/Flags.lean. -/

namespace Sys2Proof.Machine

/-- `add`, `sub`, `mul`, `inc`, `dec` (R227): the result to operand 1 with its own Y and V. -/
def arith (f : Word → Word → ArithResult) (o1 o2 : Operand) (len : Nat) (s : State) : Out :=
  finish len s (do
    let a ← readOp o1 s
    let b ← readOp o2 s
    writeOpYV o1 (f a b).value .w32 (f a b).carry (f a b).overflow s)

/-- `cmp` (R228): only FL is written. -/
def compare (o1 o2 : Operand) (len : Nat) (s : State) : Out :=
  finish len s (do
    let a ← readOp o1 s
    let b ← readOp o2 s
    return s.setReg .fl (compareFlags (s.reg .fl) a b))

/-- `idiv` and `mod` (R229): unsigned; a divisor of 0 raises `DivideByZero` at this instruction's address, before any
change (R324). -/
def divide (f : Word → Word → Word) (o1 o2 : Operand) (len : Nat) (s : State) : Out :=
  finish len s (do
    let a ← readOp o1 s
    let b ← readOp o2 s
    if b = 0 then .error (.divideByZero (s.reg .pc)) else writeOp o1 (f a b) .w32 s)

/-- `add R, R`, opcode 0x42 (spec/43_arithmetic.md R230). -/
def execAddRR (r1 r2 : Reg) (s : State) : Out :=
  arith addWord (.reg r1) (.reg r2) 2 s

/-- `add R, v8`, opcode 0x43 (spec/43_arithmetic.md R231). -/
def execAddRV8 (r1 : Reg) (imm : BitVec 8) (s : State) : Out :=
  arith addWord (.reg r1) (.imm8 imm) 3 s

/-- `add R, v16`, opcode 0x44 (spec/43_arithmetic.md R232). -/
def execAddRV16 (r1 : Reg) (imm : BitVec 16) (s : State) : Out :=
  arith addWord (.reg r1) (.imm16 imm) 4 s

/-- `add R, v32`, opcode 0x45 (spec/43_arithmetic.md R233). -/
def execAddRV32 (r1 : Reg) (imm : Word) (s : State) : Out :=
  arith addWord (.reg r1) (.imm32 imm) 6 s

/-- `sub R, R`, opcode 0x46 (spec/43_arithmetic.md R234). -/
def execSubRR (r1 r2 : Reg) (s : State) : Out :=
  arith subWord (.reg r1) (.reg r2) 2 s

/-- `sub R, v8`, opcode 0x47 (spec/43_arithmetic.md R235). -/
def execSubRV8 (r1 : Reg) (imm : BitVec 8) (s : State) : Out :=
  arith subWord (.reg r1) (.imm8 imm) 3 s

/-- `sub R, v16`, opcode 0x48 (spec/43_arithmetic.md R236). -/
def execSubRV16 (r1 : Reg) (imm : BitVec 16) (s : State) : Out :=
  arith subWord (.reg r1) (.imm16 imm) 4 s

/-- `sub R, v32`, opcode 0x49 (spec/43_arithmetic.md R237). -/
def execSubRV32 (r1 : Reg) (imm : Word) (s : State) : Out :=
  arith subWord (.reg r1) (.imm32 imm) 6 s

/-- `cmp R, R`, opcode 0x4A (spec/43_arithmetic.md R238). -/
def execCmpRR (r1 r2 : Reg) (s : State) : Out :=
  compare (.reg r1) (.reg r2) 2 s

/-- `cmp R, v8`, opcode 0x4B (spec/43_arithmetic.md R239). -/
def execCmpRV8 (r1 : Reg) (imm : BitVec 8) (s : State) : Out :=
  compare (.reg r1) (.imm8 imm) 3 s

/-- `cmp R, v16`, opcode 0x4C (spec/43_arithmetic.md R240). -/
def execCmpRV16 (r1 : Reg) (imm : BitVec 16) (s : State) : Out :=
  compare (.reg r1) (.imm16 imm) 4 s

/-- `cmp R, v32`, opcode 0x4D (spec/43_arithmetic.md R241). -/
def execCmpRV32 (r1 : Reg) (imm : Word) (s : State) : Out :=
  compare (.reg r1) (.imm32 imm) 6 s

/-- `mul R, R`, opcode 0x4E (spec/43_arithmetic.md R242). -/
def execMulRR (r1 r2 : Reg) (s : State) : Out :=
  arith mulWord (.reg r1) (.reg r2) 2 s

/-- `mul R, v8`, opcode 0x4F (spec/43_arithmetic.md R243). -/
def execMulRV8 (r1 : Reg) (imm : BitVec 8) (s : State) : Out :=
  arith mulWord (.reg r1) (.imm8 imm) 3 s

/-- `mul R, v16`, opcode 0x50 (spec/43_arithmetic.md R244). -/
def execMulRV16 (r1 : Reg) (imm : BitVec 16) (s : State) : Out :=
  arith mulWord (.reg r1) (.imm16 imm) 4 s

/-- `mul R, v32`, opcode 0x51 (spec/43_arithmetic.md R245). -/
def execMulRV32 (r1 : Reg) (imm : Word) (s : State) : Out :=
  arith mulWord (.reg r1) (.imm32 imm) 6 s

/-- `idiv R, R`, opcode 0x52 (spec/43_arithmetic.md R246). -/
def execIdivRR (r1 r2 : Reg) (s : State) : Out :=
  divide (fun a b => a / b) (.reg r1) (.reg r2) 2 s

/-- `idiv R, v8`, opcode 0x53 (spec/43_arithmetic.md R247). -/
def execIdivRV8 (r1 : Reg) (imm : BitVec 8) (s : State) : Out :=
  divide (fun a b => a / b) (.reg r1) (.imm8 imm) 3 s

/-- `idiv R, v16`, opcode 0x54 (spec/43_arithmetic.md R248). -/
def execIdivRV16 (r1 : Reg) (imm : BitVec 16) (s : State) : Out :=
  divide (fun a b => a / b) (.reg r1) (.imm16 imm) 4 s

/-- `idiv R, v32`, opcode 0x55 (spec/43_arithmetic.md R249). -/
def execIdivRV32 (r1 : Reg) (imm : Word) (s : State) : Out :=
  divide (fun a b => a / b) (.reg r1) (.imm32 imm) 6 s

/-- `mod R, R`, opcode 0x56 (spec/43_arithmetic.md R250). -/
def execModRR (r1 r2 : Reg) (s : State) : Out :=
  divide (fun a b => a % b) (.reg r1) (.reg r2) 2 s

/-- `mod R, v8`, opcode 0x57 (spec/43_arithmetic.md R251). -/
def execModRV8 (r1 : Reg) (imm : BitVec 8) (s : State) : Out :=
  divide (fun a b => a % b) (.reg r1) (.imm8 imm) 3 s

/-- `mod R, v16`, opcode 0x58 (spec/43_arithmetic.md R252). -/
def execModRV16 (r1 : Reg) (imm : BitVec 16) (s : State) : Out :=
  divide (fun a b => a % b) (.reg r1) (.imm16 imm) 4 s

/-- `mod R, v32`, opcode 0x59 (spec/43_arithmetic.md R253). -/
def execModRV32 (r1 : Reg) (imm : Word) (s : State) : Out :=
  divide (fun a b => a % b) (.reg r1) (.imm32 imm) 6 s

/-- `inc R`, opcode 0x5A (spec/43_arithmetic.md R254). -/
def execIncR (r1 : Reg) (s : State) : Out :=
  arith addWord (.reg r1) (.imm32 1#32) 2 s

/-- `dec R`, opcode 0x5B (spec/43_arithmetic.md R255). -/
def execDecR (r1 : Reg) (s : State) : Out :=
  arith subWord (.reg r1) (.imm32 1#32) 2 s

/-- `cmp R`, opcode 0x8B (spec/43_arithmetic.md R256). -/
def execCmpR (r1 : Reg) (s : State) : Out :=
  compare (.reg r1) (.imm32 0#32) 2 s

end Sys2Proof.Machine
end

