-- ==== Sys2Proof/Machine/Branch.lean ====
section
/-! DEFINITION. The control transfers (spec/44_branch.md). A taken transfer sets PC and is not followed by the advance
(R258); none changes a flag (R259). -/

namespace Sys2Proof.Machine

/-- A conditional branch (R257): the target is the operand's value; not taken, the common advance (R259). -/
def branch (taken : Word → Bool) (o : Operand) (len : Nat) (s : State) : Out :=
  if taken (s.reg .fl) then
    transfer s (do return s.setReg .pc (← readOp o s))
  else
    finish len s (do
      let _ ← readOp o s
      return s)

/-- `jmp` (R280, R281). -/
def jump (o : Operand) (s : State) : Out :=
  transfer s (do return s.setReg .pc (← readOp o s))

/-- `jsr` (R282, R283): the target is read before SP moves; the address of the next instruction is pushed. -/
def call (o : Operand) (len : Nat) (s : State) : Out :=
  transfer s (do
    let t ← readOp o s
    return (s.pushValue .w32 (s.reg .pc + BitVec.ofNat 32 len)).setReg .pc t)

/-- `ret` (R284): the popped dword is the target. -/
def returnFromCall (s : State) : Out :=
  transfer s (do
    let t ← memRead s (s.reg .sp).toNat 4
    return (s.setReg .sp (s.reg .sp + 4)).setReg .pc t)

/-- `bz R`, opcode 0x5C (spec/44_branch.md R260). -/
def execBzR (r1 : Reg) (s : State) : Out :=
  branch (fun fl => getFlag fl .z) (.reg r1) 2 s

/-- `bz v32`, opcode 0x5D (spec/44_branch.md R261). -/
def execBzV32 (imm : Word) (s : State) : Out :=
  branch (fun fl => getFlag fl .z) (.imm32 imm) 5 s

/-- `bnz R`, opcode 0x5E (spec/44_branch.md R262). -/
def execBnzR (r1 : Reg) (s : State) : Out :=
  branch (fun fl => !getFlag fl .z) (.reg r1) 2 s

/-- `bnz v32`, opcode 0x5F (spec/44_branch.md R263). -/
def execBnzV32 (imm : Word) (s : State) : Out :=
  branch (fun fl => !getFlag fl .z) (.imm32 imm) 5 s

/-- `bneg R`, opcode 0x60 (spec/44_branch.md R264). -/
def execBnegR (r1 : Reg) (s : State) : Out :=
  branch (fun fl => getFlag fl .s) (.reg r1) 2 s

/-- `bneg v32`, opcode 0x61 (spec/44_branch.md R265). -/
def execBnegV32 (imm : Word) (s : State) : Out :=
  branch (fun fl => getFlag fl .s) (.imm32 imm) 5 s

/-- `bpos R`, opcode 0x62 (spec/44_branch.md R266). -/
def execBposR (r1 : Reg) (s : State) : Out :=
  branch (fun fl => !getFlag fl .s) (.reg r1) 2 s

/-- `bpos v32`, opcode 0x63 (spec/44_branch.md R267). -/
def execBposV32 (imm : Word) (s : State) : Out :=
  branch (fun fl => !getFlag fl .s) (.imm32 imm) 5 s

/-- `bgt R`, opcode 0x64 (spec/44_branch.md R268). -/
def execBgtR (r1 : Reg) (s : State) : Out :=
  branch (fun fl => getFlag fl .gt) (.reg r1) 2 s

/-- `bgt v32`, opcode 0x65 (spec/44_branch.md R269). -/
def execBgtV32 (imm : Word) (s : State) : Out :=
  branch (fun fl => getFlag fl .gt) (.imm32 imm) 5 s

/-- `bgte R`, opcode 0x66 (spec/44_branch.md R270). -/
def execBgteR (r1 : Reg) (s : State) : Out :=
  branch (fun fl => getFlag fl .gt || getFlag fl .z) (.reg r1) 2 s

/-- `bgte v32`, opcode 0x67 (spec/44_branch.md R271). -/
def execBgteV32 (imm : Word) (s : State) : Out :=
  branch (fun fl => getFlag fl .gt || getFlag fl .z) (.imm32 imm) 5 s

/-- `blt R`, opcode 0x68 (spec/44_branch.md R272). -/
def execBltR (r1 : Reg) (s : State) : Out :=
  branch (fun fl => getFlag fl .lt) (.reg r1) 2 s

/-- `blt v32`, opcode 0x69 (spec/44_branch.md R273). -/
def execBltV32 (imm : Word) (s : State) : Out :=
  branch (fun fl => getFlag fl .lt) (.imm32 imm) 5 s

/-- `blte R`, opcode 0x6A (spec/44_branch.md R274). -/
def execBlteR (r1 : Reg) (s : State) : Out :=
  branch (fun fl => getFlag fl .lt || getFlag fl .z) (.reg r1) 2 s

/-- `blte v32`, opcode 0x6B (spec/44_branch.md R275). -/
def execBlteV32 (imm : Word) (s : State) : Out :=
  branch (fun fl => getFlag fl .lt || getFlag fl .z) (.imm32 imm) 5 s

/-- `bv R`, opcode 0x6C (spec/44_branch.md R276). -/
def execBvR (r1 : Reg) (s : State) : Out :=
  branch (fun fl => getFlag fl .v) (.reg r1) 2 s

/-- `bv v32`, opcode 0x6D (spec/44_branch.md R277). -/
def execBvV32 (imm : Word) (s : State) : Out :=
  branch (fun fl => getFlag fl .v) (.imm32 imm) 5 s

/-- `bnv R`, opcode 0x6E (spec/44_branch.md R278). -/
def execBnvR (r1 : Reg) (s : State) : Out :=
  branch (fun fl => !getFlag fl .v) (.reg r1) 2 s

/-- `bnv v32`, opcode 0x6F (spec/44_branch.md R279). -/
def execBnvV32 (imm : Word) (s : State) : Out :=
  branch (fun fl => !getFlag fl .v) (.imm32 imm) 5 s

/-- `jmp R`, opcode 0x70 (spec/44_branch.md R280). -/
def execJmpR (r1 : Reg) (s : State) : Out :=
  jump (.reg r1) s

/-- `jmp v32`, opcode 0x71 (spec/44_branch.md R281). -/
def execJmpV32 (imm : Word) (s : State) : Out :=
  jump (.imm32 imm) s

/-- `jsr R`, opcode 0x72 (spec/44_branch.md R282). -/
def execJsrR (r1 : Reg) (s : State) : Out :=
  call (.reg r1) 2 s

/-- `jsr v32`, opcode 0x73 (spec/44_branch.md R283). -/
def execJsrV32 (imm : Word) (s : State) : Out :=
  call (.imm32 imm) 5 s

/-- `ret`, opcode 0x74 (spec/44_branch.md R284). -/
def execRet (s : State) : Out :=
  returnFromCall s

end Sys2Proof.Machine
end

