-- ==== Sys2Proof/Machine/Logic.lean ====
section
/-! DEFINITION. The logic and shift instructions (spec/42_logic.md). -/

namespace Sys2Proof.Machine

/-- `LOGIC_op(o1, o2)` (R206): both operands read, operand 1 first, the 32-bit result written back to operand 1. -/
def binary (f : Word → Word → Word) (o1 o2 : Operand) (len : Nat) (s : State) : Out :=
  finish len s (do
    let a ← readOp o1 s
    let b ← readOp o2 s
    writeOp o1 (f a b) .w32 s)

/-- The one-operand shape of `not` (R208). -/
def unary (f : Word → Word) (o1 : Operand) (len : Nat) (s : State) : Out :=
  finish len s (do
    let a ← readOp o1 s
    writeOp o1 (f a) .w32 s)

/-- `shl` (R207): the whole 32-bit count; 32 or more gives 0. -/
def shiftLeftWord (a n : Word) : Word := if 32 ≤ n.toNat then 0 else a <<< n.toNat

/-- `shr` (R207): logical; the whole 32-bit count; 32 or more gives 0. -/
def shiftRightWord (a n : Word) : Word := if 32 ≤ n.toNat then 0 else a >>> n.toNat

/-- `or R, R`, opcode 0x2D (spec/42_logic.md R210). -/
def execOrRR (r1 r2 : Reg) (s : State) : Out :=
  binary (fun a b => a ||| b) (.reg r1) (.reg r2) 2 s

/-- `or R, v8`, opcode 0x2E (spec/42_logic.md R211). -/
def execOrRV8 (r1 : Reg) (imm : BitVec 8) (s : State) : Out :=
  binary (fun a b => a ||| b) (.reg r1) (.imm8 imm) 3 s

/-- `or R, v16`, opcode 0x2F (spec/42_logic.md R212). -/
def execOrRV16 (r1 : Reg) (imm : BitVec 16) (s : State) : Out :=
  binary (fun a b => a ||| b) (.reg r1) (.imm16 imm) 4 s

/-- `or R, v32`, opcode 0x30 (spec/42_logic.md R213). -/
def execOrRV32 (r1 : Reg) (imm : Word) (s : State) : Out :=
  binary (fun a b => a ||| b) (.reg r1) (.imm32 imm) 6 s

/-- `xor R, R`, opcode 0x31 (spec/42_logic.md R214). -/
def execXorRR (r1 r2 : Reg) (s : State) : Out :=
  binary (fun a b => a ^^^ b) (.reg r1) (.reg r2) 2 s

/-- `xor R, v8`, opcode 0x32 (spec/42_logic.md R215). -/
def execXorRV8 (r1 : Reg) (imm : BitVec 8) (s : State) : Out :=
  binary (fun a b => a ^^^ b) (.reg r1) (.imm8 imm) 3 s

/-- `xor R, v16`, opcode 0x33 (spec/42_logic.md R216). -/
def execXorRV16 (r1 : Reg) (imm : BitVec 16) (s : State) : Out :=
  binary (fun a b => a ^^^ b) (.reg r1) (.imm16 imm) 4 s

/-- `xor R, v32`, opcode 0x34 (spec/42_logic.md R217). -/
def execXorRV32 (r1 : Reg) (imm : Word) (s : State) : Out :=
  binary (fun a b => a ^^^ b) (.reg r1) (.imm32 imm) 6 s

/-- `and R, R`, opcode 0x35 (spec/42_logic.md R218). -/
def execAndRR (r1 r2 : Reg) (s : State) : Out :=
  binary (fun a b => a &&& b) (.reg r1) (.reg r2) 2 s

/-- `and R, v8`, opcode 0x36 (spec/42_logic.md R219). -/
def execAndRV8 (r1 : Reg) (imm : BitVec 8) (s : State) : Out :=
  binary (fun a b => a &&& b) (.reg r1) (.imm8 imm) 3 s

/-- `and R, v16`, opcode 0x37 (spec/42_logic.md R220). -/
def execAndRV16 (r1 : Reg) (imm : BitVec 16) (s : State) : Out :=
  binary (fun a b => a &&& b) (.reg r1) (.imm16 imm) 4 s

/-- `and R, v32`, opcode 0x38 (spec/42_logic.md R221). -/
def execAndRV32 (r1 : Reg) (imm : Word) (s : State) : Out :=
  binary (fun a b => a &&& b) (.reg r1) (.imm32 imm) 6 s

/-- `shl R, R`, opcode 0x39 (spec/42_logic.md R222). -/
def execShlRR (r1 r2 : Reg) (s : State) : Out :=
  binary shiftLeftWord (.reg r1) (.reg r2) 2 s

/-- `shl R, v8`, opcode 0x3A (spec/42_logic.md R223). -/
def execShlRV8 (r1 : Reg) (imm : BitVec 8) (s : State) : Out :=
  binary shiftLeftWord (.reg r1) (.imm8 imm) 3 s

/-- `shr R, R`, opcode 0x3D (spec/42_logic.md R224). -/
def execShrRR (r1 r2 : Reg) (s : State) : Out :=
  binary shiftRightWord (.reg r1) (.reg r2) 2 s

/-- `shr R, v8`, opcode 0x3E (spec/42_logic.md R225). -/
def execShrRV8 (r1 : Reg) (imm : BitVec 8) (s : State) : Out :=
  binary shiftRightWord (.reg r1) (.imm8 imm) 3 s

/-- `not R`, opcode 0x41 (spec/42_logic.md R226). -/
def execNotR (r1 : Reg) (s : State) : Out :=
  unary (fun a => a ^^^ 0xFFFFFFFF#32) (.reg r1) 2 s

end Sys2Proof.Machine
end

