-- ==== Sys2Proof/Machine/Misc.lean ====
section
/-! DEFINITION. The system and miscellaneous instructions (spec/46_misc.md). -/

namespace Sys2Proof.Machine

/-- `sys`, `iret`, `sret` (R305): with EXT_SEM none the instruction raises `ExtensionNotImplemented` before any change; with
an extension installed the outcome is the extension's, which sees the registers, the read-only bus view and the decoded
instruction: the first of its reads that raises is its fault (R321), otherwise it answers new registers, commands and whether
it transferred control, or a fault. Where it did not transfer control PC is advanced from the value it gave, by R152
(DEDUCED: log entry 5). -/
def extension (i : Instr) (op : Byte) (len : Nat) (s : State) : Out :=
  match s.ext with
  | none => .next (s.takeFault (.extensionNotImplemented op) .poll)
  | some id =>
    match firstFault s (Config.extReads id s.regs (busView s) i) with
    | some f => .next (s.takeFault f .poll)
    | none =>
      match Config.extSem id s.regs (busView s) i with
      | .error f => .next (s.takeFault f.toFault .poll)
      | .ok r =>
        let s' := (s.setRegFile r.regs).enqueue r.commands
        .next (if r.transferred then s' else s'.advance len)

/-- `sys R`, opcode 0x75 (spec/46_misc.md R310). -/
def execSysR (r1 : Reg) (s : State) : Out :=
  extension (.sysR r1) 0x75#8 2 s

/-- `sys v8`, opcode 0x76 (spec/46_misc.md R311). -/
def execSysV8 (imm : BitVec 8) (s : State) : Out :=
  extension (.sysV8 imm) 0x76#8 2 s

/-- `iret`, opcode 0x77 (spec/46_misc.md R312). -/
def execIret (s : State) : Out :=
  extension (.iret) 0x77#8 1 s

/-- `sret`, opcode 0x86 (spec/46_misc.md R313). -/
def execSret (s : State) : Out :=
  extension (.sret) 0x86#8 1 s

/-- `nop`, opcode 0x87 (spec/46_misc.md R314). -/
def execNop (s : State) : Out :=
  .next (s.advance 1)

/-- `halt`, opcode 0x88 (spec/46_misc.md R315). -/
def execHalt (s : State) : Out :=
  .next ((s.setStatus .halt).advance 1)

/-- `dbg`, opcode 0x89 (spec/46_misc.md R316). -/
def execDbg (s : State) : Out :=
  .next (s.advance 1)

end Sys2Proof.Machine
end

