-- ==== Sys2Proof/Machine/Move.lean ====
section
/-! DEFINITION. The move instructions and `swap` (spec/41_move.md). -/

namespace Sys2Proof.Machine

/-- `MOVE_w(o1, o2)` (R160): operand 2, truncated to the width, into operand 1. -/
def move (w : Width) (o1 o2 : Operand) (len : Nat) (s : State) : Out :=
  finish len s (do
    let v ← readOp o2 s
    writeOp o1 (w.trunc v) w s)

/-- `swap` (R204): a raw exchange, no flag effect. -/
def exchange (r1 r2 : Reg) (len : Nat) (s : State) : Out :=
  .next (((s.setReg r1 (s.reg r2)).setReg r2 (s.reg r1)).advance len)

/-- `mov R, R`, opcode 0x01 (spec/41_move.md R170). -/
def execMovRR (r1 r2 : Reg) (s : State) : Out :=
  move .w32 (.reg r1) (.reg r2) 2 s

/-- `mov R, v8`, opcode 0x02 (spec/41_move.md R171). -/
def execMovRV8 (r1 : Reg) (imm : BitVec 8) (s : State) : Out :=
  move .w32 (.reg r1) (.imm8 imm) 3 s

/-- `mov R, v16`, opcode 0x03 (spec/41_move.md R172). -/
def execMovRV16 (r1 : Reg) (imm : BitVec 16) (s : State) : Out :=
  move .w32 (.reg r1) (.imm16 imm) 4 s

/-- `mov R, v32`, opcode 0x04 (spec/41_move.md R173). -/
def execMovRV32 (r1 : Reg) (imm : Word) (s : State) : Out :=
  move .w32 (.reg r1) (.imm32 imm) 6 s

/-- `movb R, [R]`, opcode 0x05 (spec/41_move.md R174). -/
def execMovbRI (r1 r2 : Reg) (s : State) : Out :=
  move .w8 (.reg r1) (.regInd r2) 2 s

/-- `movb R, [v32]`, opcode 0x06 (spec/41_move.md R175). -/
def execMovbRM (r1 : Reg) (addr : Word) (s : State) : Out :=
  move .w8 (.reg r1) (.memInd addr) 6 s

/-- `movw R, [R]`, opcode 0x07 (spec/41_move.md R176). -/
def execMovwRI (r1 r2 : Reg) (s : State) : Out :=
  move .w16 (.reg r1) (.regInd r2) 2 s

/-- `movw R, [v32]`, opcode 0x08 (spec/41_move.md R177). -/
def execMovwRM (r1 : Reg) (addr : Word) (s : State) : Out :=
  move .w16 (.reg r1) (.memInd addr) 6 s

/-- `movd R, [R]`, opcode 0x09 (spec/41_move.md R178). -/
def execMovdRI (r1 r2 : Reg) (s : State) : Out :=
  move .w32 (.reg r1) (.regInd r2) 2 s

/-- `movd R, [v32]`, opcode 0x0A (spec/41_move.md R179). -/
def execMovdRM (r1 : Reg) (addr : Word) (s : State) : Out :=
  move .w32 (.reg r1) (.memInd addr) 6 s

/-- `movb [R], R`, opcode 0x0B (spec/41_move.md R180). -/
def execMovbIR (r1 r2 : Reg) (s : State) : Out :=
  move .w8 (.regInd r1) (.reg r2) 2 s

/-- `movb [R], v8`, opcode 0x0C (spec/41_move.md R181). -/
def execMovbIV8 (r1 : Reg) (imm : BitVec 8) (s : State) : Out :=
  move .w8 (.regInd r1) (.imm8 imm) 3 s

/-- `movb [R], [R]`, opcode 0x0D (spec/41_move.md R182). -/
def execMovbII (r1 r2 : Reg) (s : State) : Out :=
  move .w8 (.regInd r1) (.regInd r2) 2 s

/-- `movb [R], [v32]`, opcode 0x0E (spec/41_move.md R183). -/
def execMovbIM (r1 : Reg) (addr : Word) (s : State) : Out :=
  move .w8 (.regInd r1) (.memInd addr) 6 s

/-- `movw [R], R`, opcode 0x0F (spec/41_move.md R184). -/
def execMovwIR (r1 r2 : Reg) (s : State) : Out :=
  move .w16 (.regInd r1) (.reg r2) 2 s

/-- `movw [R], v16`, opcode 0x1A (spec/41_move.md R185). -/
def execMovwIV16 (r1 : Reg) (imm : BitVec 16) (s : State) : Out :=
  move .w16 (.regInd r1) (.imm16 imm) 4 s

/-- `movw [R], [R]`, opcode 0x1B (spec/41_move.md R186). -/
def execMovwII (r1 r2 : Reg) (s : State) : Out :=
  move .w16 (.regInd r1) (.regInd r2) 2 s

/-- `movw [R], [v32]`, opcode 0x1C (spec/41_move.md R187). -/
def execMovwIM (r1 : Reg) (addr : Word) (s : State) : Out :=
  move .w16 (.regInd r1) (.memInd addr) 6 s

/-- `movd [R], R`, opcode 0x1D (spec/41_move.md R188). -/
def execMovdIR (r1 r2 : Reg) (s : State) : Out :=
  move .w32 (.regInd r1) (.reg r2) 2 s

/-- `movd [R], v32`, opcode 0x1E (spec/41_move.md R189). -/
def execMovdIV32 (r1 : Reg) (imm : Word) (s : State) : Out :=
  move .w32 (.regInd r1) (.imm32 imm) 6 s

/-- `movd [R], [R]`, opcode 0x1F (spec/41_move.md R190). -/
def execMovdII (r1 r2 : Reg) (s : State) : Out :=
  move .w32 (.regInd r1) (.regInd r2) 2 s

/-- `movd [R], [v32]`, opcode 0x20 (spec/41_move.md R191). -/
def execMovdIM (r1 : Reg) (addr : Word) (s : State) : Out :=
  move .w32 (.regInd r1) (.memInd addr) 6 s

/-- `movb [v32], R`, opcode 0x21 (spec/41_move.md R192). -/
def execMovbMR (addr : Word) (r2 : Reg) (s : State) : Out :=
  move .w8 (.memInd addr) (.reg r2) 6 s

/-- `movb [v32], v8`, opcode 0x22 (spec/41_move.md R193). -/
def execMovbMV8 (addr : Word) (imm : BitVec 8) (s : State) : Out :=
  move .w8 (.memInd addr) (.imm8 imm) 6 s

/-- `movb [v32], [R]`, opcode 0x23 (spec/41_move.md R194). -/
def execMovbMI (addr : Word) (r2 : Reg) (s : State) : Out :=
  move .w8 (.memInd addr) (.regInd r2) 6 s

/-- `movb [v32], [v32]`, opcode 0x24 (spec/41_move.md R195). -/
def execMovbMM (addr1 addr2 : Word) (s : State) : Out :=
  move .w8 (.memInd addr1) (.memInd addr2) 9 s

/-- `movw [v32], R`, opcode 0x25 (spec/41_move.md R196). -/
def execMovwMR (addr : Word) (r2 : Reg) (s : State) : Out :=
  move .w16 (.memInd addr) (.reg r2) 6 s

/-- `movw [v32], v16`, opcode 0x26 (spec/41_move.md R197). -/
def execMovwMV16 (addr : Word) (imm : BitVec 16) (s : State) : Out :=
  move .w16 (.memInd addr) (.imm16 imm) 7 s

/-- `movw [v32], [R]`, opcode 0x27 (spec/41_move.md R198). -/
def execMovwMI (addr : Word) (r2 : Reg) (s : State) : Out :=
  move .w16 (.memInd addr) (.regInd r2) 6 s

/-- `movw [v32], [v32]`, opcode 0x28 (spec/41_move.md R199). -/
def execMovwMM (addr1 addr2 : Word) (s : State) : Out :=
  move .w16 (.memInd addr1) (.memInd addr2) 9 s

/-- `movd [v32], R`, opcode 0x29 (spec/41_move.md R200). -/
def execMovdMR (addr : Word) (r2 : Reg) (s : State) : Out :=
  move .w32 (.memInd addr) (.reg r2) 6 s

/-- `movd [v32], v32`, opcode 0x2A (spec/41_move.md R201). -/
def execMovdMV32 (addr imm : Word) (s : State) : Out :=
  move .w32 (.memInd addr) (.imm32 imm) 9 s

/-- `movd [v32], [R]`, opcode 0x2B (spec/41_move.md R202). -/
def execMovdMI (addr : Word) (r2 : Reg) (s : State) : Out :=
  move .w32 (.memInd addr) (.regInd r2) 6 s

/-- `movd [v32], [v32]`, opcode 0x2C (spec/41_move.md R203). -/
def execMovdMM (addr1 addr2 : Word) (s : State) : Out :=
  move .w32 (.memInd addr1) (.memInd addr2) 9 s

/-- `swap R, R`, opcode 0x8A (spec/41_move.md R204). -/
def execSwapRR (r1 r2 : Reg) (s : State) : Out :=
  exchange r1 r2 2 s

end Sys2Proof.Machine
end

