-- ==== Sys2Proof/Machine/Stack.lean ====
section
/-! DEFINITION. The stack instructions (spec/45_stack.md): full-descending on SP (R285), no flag changed (R286). -/

namespace Sys2Proof.Machine

/-- `Push_n` (R285): the value is read before SP moves (R289). -/
def push (w : Width) (o : Operand) (len : Nat) (s : State) : Out :=
  finish len s (do
    let v ← readOp o s
    return s.pushValue w v)

/-- `Pop_n` (R285): exactly the width's bytes are read; SP moves, then the register is written raw (R286, R289). -/
def pop (w : Width) (r1 : Reg) (len : Nat) (s : State) : Out :=
  finish len s (do
    let v ← memRead s (s.reg .sp).toNat w.bytes
    return (s.setReg .sp (s.reg .sp + BitVec.ofNat 32 w.bytes)).setReg r1 v)

/-- A to L, the registers `push.a` and `pop.a` move (R296, R300). -/
def stackedRegs : List Reg := [.a, .b, .c, .d, .e, .f, .g, .h, .i, .j, .k, .l]

/-- The twelve pushes of `push.a`, A first (R296). -/
def pushRegs : List Reg → State → State
  | [], s => s
  | r :: rs, s => pushRegs rs (s.pushValue .w32 (s.reg r))

/-- `push.a` (R296). -/
def pushAll (len : Nat) (s : State) : Out :=
  .next ((pushRegs stackedRegs s).advance len)

/-- The reads of `pop.a`, one dword for each register of the list, from ascending addresses that wrap modulo 2^32 (R300). -/
def readSlots (s : State) : List Reg → Word → Except Fault (List (Reg × Word))
  | [], _ => .ok []
  | r :: rs, addr => do
    let v ← memRead s addr.toNat 4
    let vs ← readSlots s rs (addr + 4)
    return (r, v) :: vs

/-- The raw register writes of `pop.a`. -/
def setRegs : List (Reg × Word) → State → State
  | [], s => s
  | (r, v) :: vs, s => setRegs vs (s.setReg r v)

/-- `pop.a` (R300): all reads first, L from the lowest address and A from the highest. -/
def popAll (len : Nat) (s : State) : Out :=
  finish len s (do
    let vs ← readSlots s stackedRegs.reverse (s.reg .sp)
    return (setRegs vs s).setReg .sp (s.reg .sp + 48))

/-- `popx` (R301 to R303): SP moves up by the operand's value, modulo 2^32; no memory is read. -/
def discard (o : Operand) (len : Nat) (s : State) : Out :=
  finish len s (do
    let n ← readOp o s
    return s.setReg .sp (s.reg .sp + n))

/-- `pushb R`, opcode 0x78 (spec/45_stack.md R290). -/
def execPushbR (r1 : Reg) (s : State) : Out :=
  push .w8 (.reg r1) 2 s

/-- `pushb v8`, opcode 0x79 (spec/45_stack.md R291). -/
def execPushbV8 (imm : BitVec 8) (s : State) : Out :=
  push .w8 (.imm8 imm) 2 s

/-- `pushw R`, opcode 0x7A (spec/45_stack.md R292). -/
def execPushwR (r1 : Reg) (s : State) : Out :=
  push .w16 (.reg r1) 2 s

/-- `pushw v16`, opcode 0x7B (spec/45_stack.md R293). -/
def execPushwV16 (imm : BitVec 16) (s : State) : Out :=
  push .w16 (.imm16 imm) 3 s

/-- `pushd R`, opcode 0x7C (spec/45_stack.md R294). -/
def execPushdR (r1 : Reg) (s : State) : Out :=
  push .w32 (.reg r1) 2 s

/-- `pushd v32`, opcode 0x7D (spec/45_stack.md R295). -/
def execPushdV32 (imm : Word) (s : State) : Out :=
  push .w32 (.imm32 imm) 5 s

/-- `push.a`, opcode 0x7E (spec/45_stack.md R296). -/
def execPushA (s : State) : Out :=
  pushAll 1 s

/-- `popb R`, opcode 0x7F (spec/45_stack.md R297). -/
def execPopbR (r1 : Reg) (s : State) : Out :=
  pop .w8 r1 2 s

/-- `popw R`, opcode 0x80 (spec/45_stack.md R298). -/
def execPopwR (r1 : Reg) (s : State) : Out :=
  pop .w16 r1 2 s

/-- `popd R`, opcode 0x81 (spec/45_stack.md R299). -/
def execPopdR (r1 : Reg) (s : State) : Out :=
  pop .w32 r1 2 s

/-- `pop.a`, opcode 0x82 (spec/45_stack.md R300). -/
def execPopA (s : State) : Out :=
  popAll 1 s

/-- `popx R`, opcode 0x83 (spec/45_stack.md R301). -/
def execPopxR (r1 : Reg) (s : State) : Out :=
  discard (.reg r1) 2 s

/-- `popx v8`, opcode 0x84 (spec/45_stack.md R302). -/
def execPopxV8 (imm : BitVec 8) (s : State) : Out :=
  discard (.imm8 imm) 2 s

/-- `popx v16`, opcode 0x85 (spec/45_stack.md R303). -/
def execPopxV16 (imm : BitVec 16) (s : State) : Out :=
  discard (.imm16 imm) 3 s

end Sys2Proof.Machine
end

