-- ==== Sys2Proof/Machine/Dispatch.lean ====
section
/-! DEFINITION. The meaning of each instruction: one arm per constructor of `Instr`. -/

namespace Sys2Proof.Machine

-- What an instruction does in the CPU's part of a global step, decode done: registers and flags change at once, stores are
-- queued, PC is advanced or set (spec/40_execute.md R140, R141).
def exec (i : Instr) (s : State) : Host.Outcome State Fault Refusal :=
  match i with
  | .movRR r1 r2 => Sys2Proof.Machine.execMovRR r1 r2 s
  | .movRV8 r1 imm => Sys2Proof.Machine.execMovRV8 r1 imm s
  | .movRV16 r1 imm => Sys2Proof.Machine.execMovRV16 r1 imm s
  | .movRV32 r1 imm => Sys2Proof.Machine.execMovRV32 r1 imm s
  | .movbRI r1 r2 => Sys2Proof.Machine.execMovbRI r1 r2 s
  | .movbRM r1 addr => Sys2Proof.Machine.execMovbRM r1 addr s
  | .movwRI r1 r2 => Sys2Proof.Machine.execMovwRI r1 r2 s
  | .movwRM r1 addr => Sys2Proof.Machine.execMovwRM r1 addr s
  | .movdRI r1 r2 => Sys2Proof.Machine.execMovdRI r1 r2 s
  | .movdRM r1 addr => Sys2Proof.Machine.execMovdRM r1 addr s
  | .movbIR r1 r2 => Sys2Proof.Machine.execMovbIR r1 r2 s
  | .movbIV8 r1 imm => Sys2Proof.Machine.execMovbIV8 r1 imm s
  | .movbII r1 r2 => Sys2Proof.Machine.execMovbII r1 r2 s
  | .movbIM r1 addr => Sys2Proof.Machine.execMovbIM r1 addr s
  | .movwIR r1 r2 => Sys2Proof.Machine.execMovwIR r1 r2 s
  | .movwIV16 r1 imm => Sys2Proof.Machine.execMovwIV16 r1 imm s
  | .movwII r1 r2 => Sys2Proof.Machine.execMovwII r1 r2 s
  | .movwIM r1 addr => Sys2Proof.Machine.execMovwIM r1 addr s
  | .movdIR r1 r2 => Sys2Proof.Machine.execMovdIR r1 r2 s
  | .movdIV32 r1 imm => Sys2Proof.Machine.execMovdIV32 r1 imm s
  | .movdII r1 r2 => Sys2Proof.Machine.execMovdII r1 r2 s
  | .movdIM r1 addr => Sys2Proof.Machine.execMovdIM r1 addr s
  | .movbMR addr r2 => Sys2Proof.Machine.execMovbMR addr r2 s
  | .movbMV8 addr imm => Sys2Proof.Machine.execMovbMV8 addr imm s
  | .movbMI addr r2 => Sys2Proof.Machine.execMovbMI addr r2 s
  | .movbMM addr1 addr2 => Sys2Proof.Machine.execMovbMM addr1 addr2 s
  | .movwMR addr r2 => Sys2Proof.Machine.execMovwMR addr r2 s
  | .movwMV16 addr imm => Sys2Proof.Machine.execMovwMV16 addr imm s
  | .movwMI addr r2 => Sys2Proof.Machine.execMovwMI addr r2 s
  | .movwMM addr1 addr2 => Sys2Proof.Machine.execMovwMM addr1 addr2 s
  | .movdMR addr r2 => Sys2Proof.Machine.execMovdMR addr r2 s
  | .movdMV32 addr imm => Sys2Proof.Machine.execMovdMV32 addr imm s
  | .movdMI addr r2 => Sys2Proof.Machine.execMovdMI addr r2 s
  | .movdMM addr1 addr2 => Sys2Proof.Machine.execMovdMM addr1 addr2 s
  | .orRR r1 r2 => Sys2Proof.Machine.execOrRR r1 r2 s
  | .orRV8 r1 imm => Sys2Proof.Machine.execOrRV8 r1 imm s
  | .orRV16 r1 imm => Sys2Proof.Machine.execOrRV16 r1 imm s
  | .orRV32 r1 imm => Sys2Proof.Machine.execOrRV32 r1 imm s
  | .xorRR r1 r2 => Sys2Proof.Machine.execXorRR r1 r2 s
  | .xorRV8 r1 imm => Sys2Proof.Machine.execXorRV8 r1 imm s
  | .xorRV16 r1 imm => Sys2Proof.Machine.execXorRV16 r1 imm s
  | .xorRV32 r1 imm => Sys2Proof.Machine.execXorRV32 r1 imm s
  | .andRR r1 r2 => Sys2Proof.Machine.execAndRR r1 r2 s
  | .andRV8 r1 imm => Sys2Proof.Machine.execAndRV8 r1 imm s
  | .andRV16 r1 imm => Sys2Proof.Machine.execAndRV16 r1 imm s
  | .andRV32 r1 imm => Sys2Proof.Machine.execAndRV32 r1 imm s
  | .shlRR r1 r2 => Sys2Proof.Machine.execShlRR r1 r2 s
  | .shlRV8 r1 imm => Sys2Proof.Machine.execShlRV8 r1 imm s
  | .shrRR r1 r2 => Sys2Proof.Machine.execShrRR r1 r2 s
  | .shrRV8 r1 imm => Sys2Proof.Machine.execShrRV8 r1 imm s
  | .notR r1 => Sys2Proof.Machine.execNotR r1 s
  | .addRR r1 r2 => Sys2Proof.Machine.execAddRR r1 r2 s
  | .addRV8 r1 imm => Sys2Proof.Machine.execAddRV8 r1 imm s
  | .addRV16 r1 imm => Sys2Proof.Machine.execAddRV16 r1 imm s
  | .addRV32 r1 imm => Sys2Proof.Machine.execAddRV32 r1 imm s
  | .subRR r1 r2 => Sys2Proof.Machine.execSubRR r1 r2 s
  | .subRV8 r1 imm => Sys2Proof.Machine.execSubRV8 r1 imm s
  | .subRV16 r1 imm => Sys2Proof.Machine.execSubRV16 r1 imm s
  | .subRV32 r1 imm => Sys2Proof.Machine.execSubRV32 r1 imm s
  | .cmpRR r1 r2 => Sys2Proof.Machine.execCmpRR r1 r2 s
  | .cmpRV8 r1 imm => Sys2Proof.Machine.execCmpRV8 r1 imm s
  | .cmpRV16 r1 imm => Sys2Proof.Machine.execCmpRV16 r1 imm s
  | .cmpRV32 r1 imm => Sys2Proof.Machine.execCmpRV32 r1 imm s
  | .mulRR r1 r2 => Sys2Proof.Machine.execMulRR r1 r2 s
  | .mulRV8 r1 imm => Sys2Proof.Machine.execMulRV8 r1 imm s
  | .mulRV16 r1 imm => Sys2Proof.Machine.execMulRV16 r1 imm s
  | .mulRV32 r1 imm => Sys2Proof.Machine.execMulRV32 r1 imm s
  | .idivRR r1 r2 => Sys2Proof.Machine.execIdivRR r1 r2 s
  | .idivRV8 r1 imm => Sys2Proof.Machine.execIdivRV8 r1 imm s
  | .idivRV16 r1 imm => Sys2Proof.Machine.execIdivRV16 r1 imm s
  | .idivRV32 r1 imm => Sys2Proof.Machine.execIdivRV32 r1 imm s
  | .modRR r1 r2 => Sys2Proof.Machine.execModRR r1 r2 s
  | .modRV8 r1 imm => Sys2Proof.Machine.execModRV8 r1 imm s
  | .modRV16 r1 imm => Sys2Proof.Machine.execModRV16 r1 imm s
  | .modRV32 r1 imm => Sys2Proof.Machine.execModRV32 r1 imm s
  | .incR r1 => Sys2Proof.Machine.execIncR r1 s
  | .decR r1 => Sys2Proof.Machine.execDecR r1 s
  | .bzR r1 => Sys2Proof.Machine.execBzR r1 s
  | .bzV32 imm => Sys2Proof.Machine.execBzV32 imm s
  | .bnzR r1 => Sys2Proof.Machine.execBnzR r1 s
  | .bnzV32 imm => Sys2Proof.Machine.execBnzV32 imm s
  | .bnegR r1 => Sys2Proof.Machine.execBnegR r1 s
  | .bnegV32 imm => Sys2Proof.Machine.execBnegV32 imm s
  | .bposR r1 => Sys2Proof.Machine.execBposR r1 s
  | .bposV32 imm => Sys2Proof.Machine.execBposV32 imm s
  | .bgtR r1 => Sys2Proof.Machine.execBgtR r1 s
  | .bgtV32 imm => Sys2Proof.Machine.execBgtV32 imm s
  | .bgteR r1 => Sys2Proof.Machine.execBgteR r1 s
  | .bgteV32 imm => Sys2Proof.Machine.execBgteV32 imm s
  | .bltR r1 => Sys2Proof.Machine.execBltR r1 s
  | .bltV32 imm => Sys2Proof.Machine.execBltV32 imm s
  | .blteR r1 => Sys2Proof.Machine.execBlteR r1 s
  | .blteV32 imm => Sys2Proof.Machine.execBlteV32 imm s
  | .bvR r1 => Sys2Proof.Machine.execBvR r1 s
  | .bvV32 imm => Sys2Proof.Machine.execBvV32 imm s
  | .bnvR r1 => Sys2Proof.Machine.execBnvR r1 s
  | .bnvV32 imm => Sys2Proof.Machine.execBnvV32 imm s
  | .jmpR r1 => Sys2Proof.Machine.execJmpR r1 s
  | .jmpV32 imm => Sys2Proof.Machine.execJmpV32 imm s
  | .jsrR r1 => Sys2Proof.Machine.execJsrR r1 s
  | .jsrV32 imm => Sys2Proof.Machine.execJsrV32 imm s
  | .ret => Sys2Proof.Machine.execRet s
  | .sysR r1 => Sys2Proof.Machine.execSysR r1 s
  | .sysV8 imm => Sys2Proof.Machine.execSysV8 imm s
  | .iret => Sys2Proof.Machine.execIret s
  | .pushbR r1 => Sys2Proof.Machine.execPushbR r1 s
  | .pushbV8 imm => Sys2Proof.Machine.execPushbV8 imm s
  | .pushwR r1 => Sys2Proof.Machine.execPushwR r1 s
  | .pushwV16 imm => Sys2Proof.Machine.execPushwV16 imm s
  | .pushdR r1 => Sys2Proof.Machine.execPushdR r1 s
  | .pushdV32 imm => Sys2Proof.Machine.execPushdV32 imm s
  | .pushA => Sys2Proof.Machine.execPushA s
  | .popbR r1 => Sys2Proof.Machine.execPopbR r1 s
  | .popwR r1 => Sys2Proof.Machine.execPopwR r1 s
  | .popdR r1 => Sys2Proof.Machine.execPopdR r1 s
  | .popA => Sys2Proof.Machine.execPopA s
  | .popxR r1 => Sys2Proof.Machine.execPopxR r1 s
  | .popxV8 imm => Sys2Proof.Machine.execPopxV8 imm s
  | .popxV16 imm => Sys2Proof.Machine.execPopxV16 imm s
  | .sret => Sys2Proof.Machine.execSret s
  | .nop => Sys2Proof.Machine.execNop s
  | .halt => Sys2Proof.Machine.execHalt s
  | .dbg => Sys2Proof.Machine.execDbg s
  | .swapRR r1 r2 => Sys2Proof.Machine.execSwapRR r1 r2 s
  | .cmpR r1 => Sys2Proof.Machine.execCmpR r1 s

end Sys2Proof.Machine
end

