-- ==== Sys2Proof/Machine/Fetch.lean ====
section
/-! DEFINITION. The CPU's part of a global step: fetch and decode at PC through the bus, then the instruction's meaning
(spec/30_encoding.md R104, spec/40_execute.md R140). -/

namespace Sys2Proof.Machine

/-- The bytes of the instruction at PC as the decoder reads them: byte `k` from bus address `PC + k`, which does not wrap
(R25, R58, R104). -/
def fetchReader (s : State) : ByteReader := fun k =>
  match byteAt s ((s.reg .pc).toNat + k) with
  | .ok b => some b
  | .error _ => none

/-- `Decode()` at PC (R104): the instruction, or the fault it raises. -/
def fetch (s : State) : Except Fault Instr :=
  match decode (fetchReader s) with
  | .ok i => .ok i
  | .error (.unreadable k) => .error (.outOfRange ((s.reg .pc).toNat + k))
  | .error (.illegalInstruction op) => .error (.illegalInstruction op)

/-- `CpuStep` of a running CPU (R140): a fault of `Decode` is taken with nothing changed (R142). -/
def cpuStep (s : State) : Out :=
  match fetch s with
  | .ok i => exec i s
  | .error f => .next (s.takeFault f .poll)

/-- The CPU's `step`: it does nothing unless the status is RUN (R70, R158, R306). -/
def cpuPoll (s : State) : Out :=
  match s.status with
  | .run => cpuStep s
  | .halt => .next s
  | .fault _ _ => .next s

end Sys2Proof.Machine
end

