-- ==== Sys2Proof/Machine/Cycle.lean ====
section
/-! DEFINITION. The global step: every device polled in registration order, then the queued commands applied
(spec/20_memory.md R69 to R76). -/

namespace Sys2Proof.Machine

/-! ### Well-formed device tables -/

/-- A mapped entry's base is in the device region and its window ends at or below the top of the address space; an unmapped
entry has no condition (R69). -/
def DeviceEntry.placed (d : DeviceEntry) : Bool :=
  match d.base with
  | none => true
  | some b => decide (Config.deviceBaseMin ≤ b.toNat) && decide (b.toNat + d.device.size ≤ Config.addressSpace)

/-- A CPU entry has a base: the CPU is installed by `install_cpu`, which always gives one (R68, R69); only another device may
be unmapped. -/
def DeviceEntry.installed (d : DeviceEntry) : Bool := !d.device.isCpu || d.base.isSome

/-- A well-formed device table (R69): exactly one CPU, installed with a base, and every entry placed. -/
def deviceTableOk (ds : List DeviceEntry) : Bool :=
  decide ((ds.filter fun d => d.device.isCpu).length = 1) && ds.all DeviceEntry.installed && ds.all DeviceEntry.placed

/-! ### The poll phase -/

/-- The start of a global step: the queue is empty and the step's ELAPSED value is drawn (R70, R72). -/
def State.beginStep (s : State) : State := { s with queue := [], draws := s.draws + 1 }

/-- The device table replaced. -/
def State.setDevices (s : State) (ds : List DeviceEntry) : State := { s with devices := ds }

/-- The command queue replaced. -/
def State.setQueue (s : State) (q : List Command) : State := { s with queue := q }

/-- One entry's `step` (R65, R70): the CPU's, or another device's with its new own state. The second component is the entry
after it. A device's step raises the `OutOfRange` of its first read that fails, or nothing (R66, R321); one that raises has
changed nothing, not even its own state (R142, R329). -/
def pollEntry (d : DeviceEntry) (s : State) : Out × DeviceEntry :=
  match d.device with
  | .cpu => (cpuPoll s, d)
  | .other id size st =>
    match firstFault s (Config.deviceReads id st (busView s) (Config.elapsed s.draws)) with
    | some f => (.next (s.takeFault f .poll), d)
    | none =>
      let r := Config.deviceStep id st (busView s) (Config.elapsed s.draws)
      (.next (s.enqueue r.2), { d with device := .other id size r.1 })

/-- The entries polled in registration order, up to the first that raises (R70, R71). Memory, the offset and the table in
the state stay as they were when the step began, so that is what every poll reads (R73); the second component is the table
with the polled devices' new own states (R76). -/
def pollDevices : List DeviceEntry → State → Out × List DeviceEntry
  | [], s => (.next s, [])
  | d :: ds, s =>
    match pollEntry d s with
    | (.next s', d') =>
      if s'.status.isFault then (.next s', d' :: ds)
      else ((pollDevices ds s').1, d' :: (pollDevices ds s').2)
    | (o, d') => (o, d' :: ds)

/-! ### The whole step -/

/-- The apply phase (R70, R75): the queue is emptied as its commands are applied. -/
def applyPhase (s : State) : State := applyQueue s.queue (s.setQueue [])

/-- What follows the poll phase: a poll-phase fault ends the step (R76), otherwise the queue is applied. -/
def endStep (s : State) : State := if s.status.isFault then s else applyPhase s

/-- `GlobalStep` (R70). A machine in FAULT takes no step (R327). A device table that is not well formed is refused: the
spec states its rules for well-formed ones only (R69; log entry 6). -/
def globalStep (s : State) : Out :=
  if s.status.isFault then .next s
  else if deviceTableOk s.devices then
    match pollDevices s.devices s.beginStep with
    | (.next s', ds) => .next (endStep (s'.setDevices ds))
    | (o, _) => o
  else .refused .illFormedDeviceTable

end Sys2Proof.Machine
end

