-- ==== Sys2Proof/Machine/Reset.lean ====
section
/-! DEFINITION. Construction, which is what reset is (spec/70_reset_and_hazards.md R350): the device table built by
`add_device` and `install_cpu` (spec/20_memory.md R67, R68), the host's loads of registers and memory (R351, R352). -/

namespace Sys2Proof.Machine

/-- `add_device` (R67): the state with the device registered last, and the next free address. An unmapped device has none
(log entry 10). A base below the device region or a window past the top of the address space is `InvalidMapping`, and
nothing is registered. -/
def addDevice (s : State) (d : Device) (base : Option Word) : Except Fault (State × Option Nat) :=
  match base with
  | none => .ok (s.setDevices (s.devices ++ [⟨none, d⟩]), none)
  | some b =>
    if (⟨some b, d⟩ : DeviceEntry).placed then
      .ok (s.setDevices (s.devices ++ [⟨some b, d⟩]), some (b.toNat + d.size))
    else .error (.invalidMapping b d.size)

/-- `install_cpu` (R68): `add_device` of the CPU, whose window has size 0. -/
def installCpu (s : State) (base : Word) : Except Fault (State × Option Nat) := addDevice s .cpu (some base)

/-- The entries registered one after another (R350). -/
def buildTable : List DeviceEntry → State → Except Fault State
  | [], s => .ok s
  | d :: ds, s =>
    match addDevice s d.device d.base with
    | .ok (s', _) => buildTable ds s'
    | .error f => .error f

/-- `RAM_INIT` (R352): bytes at physical indexes; an index at or above MEM_SIZE is no byte of RAM. -/
def loadRam : List Host.Cell → State → State
  | [], s => s
  | (i, b) :: cs, s => loadRam cs (if i < s.memSize then { s with ram := s.ram.write i b } else s)

/-- The platform parameters of a construction (R6). -/
structure Platform where
  memSize : Nat
  ramInit : List Host.Cell
  devices : List DeviceEntry
  regInit : RegFile
  ext : Option Nat
deriving DecidableEq, Repr

/-- The default platform (R6), with the model's own MEM_SIZE (log entry 1). -/
def Platform.default : Platform where
  memSize := Config.defaultMemSize
  ramInit := []
  devices := [⟨some Config.defaultCpuBase, .cpu⟩]
  regInit := RegFile.zero
  ext := none

/-- The state a construction starts from: RAM all zero, OFFSET 0, no device yet, registers 0, status RUN (R41, R350). -/
def Platform.blank (p : Platform) : State where
  regs := RegFile.zero
  ram := []
  memSize := p.memSize
  offset := 0
  devices := []
  queue := []
  status := .run
  ext := p.ext
  draws := 0

/-- `Reset(MEM_SIZE, RAM_INIT, DEVICES, CPU_BASE, REG_INIT)` (R350): CPU_BASE is the base of the CPU's entry. -/
def construct (p : Platform) : Except Fault State :=
  match buildTable p.devices p.blank with
  | .ok s => .ok ((loadRam p.ramInit s).setRegFile p.regInit)
  | .error f => .error f

/-- The nine bytes of an instruction given as one number, the longest an instruction can be (R100); a shorter one is
followed by zero bytes. -/
def instructionBytes (nbits w : Nat) : List Byte := (List.range 9).map (byteOfNat (w % 2 ^ nbits))

/-- The host's write of an instruction where the next fetch reads it (R352): bytes written at PC through the bus. -/
def placeAtPc (s : State) (bytes : List Byte) : State := (busWrite s (s.reg .pc).toNat bytes).1

end Sys2Proof.Machine
end

