-- ==== Sys2Proof/Machine/Step.lean ====
section
/-! DEFINITION. The step of the machine, one global step of the bus (spec/20_memory.md R70), and the host's placing of one
instruction where the next step fetches it. -/

namespace Sys2Proof.Machine

/-- One step: one call of the bus's `step()` (R70). -/
def step (s : State) : Host.Outcome State Fault Refusal := globalStep s

/-- The state with an instruction stored at PC, through the bus at the present offset, and the status RUN, so that the next
step fetches and runs it (log entry 7). -/
def State.withFetchWord (s : State) (nbits w : Nat) : State :=
  placeAtPc (s.setStatus .run) (instructionBytes nbits w)

end Sys2Proof.Machine
end

