-- ==== Sys2Proof/Safety.lean ====
section
/-! DEFINITION. The terms claims are stated in: the invariant of the machine between global steps, what an instruction may
change and what it leaves alone, and the outcomes of a run (spec/60_exceptions.md R343). -/

namespace Sys2Proof.Machine

/-! ### Causes of faults -/

/-- The kinds a running machine can raise: not InvalidMapping, which is the integrator's before any step runs (R322), and not
InvalidDestination, which no byte sequence raises (R332). -/
def Fault.raisable : Fault → Bool
  | .invalidMapping _ _ | .invalidDestination => false
  | .outOfRange _ | .illegalInstruction _ | .divideByZero _ | .extensionNotImplemented _ => true

/-- A poll-phase fault has its cause in the state it is raised in: it is of a kind that a running machine can raise, and an
OutOfRange names a byte address that cannot be read there (R321). -/
structure Fault.Caused (s : State) (f : Fault) : Prop where
  raisable : f.raisable = true
  unreadable : ∀ a, f = .outOfRange a → ∀ b, byteAt s a ≠ .ok b

/-! ### The invariant -/

/-- What holds between global steps: memory in canonical form and within MEM_SIZE, a legal MEM_SIZE (R6), a well-formed
device table (R69), an empty queue (R36), and a status latch that holds no fault but of a kind a running machine can raise
(R322, R332). -/
structure State.Inv (s : State) : Prop where
  ramCanonical : s.ram.wf = true
  ramBelow : s.ram.below s.memSize = true
  memSizeLegal : s.memSize ≤ Config.memSizeMax
  tableOk : deviceTableOk s.devices = true
  queueEmpty : s.queue = []
  faultRaisable : ∀ f phase, s.status = .fault f phase → f.raisable = true

/-- A terminated run has a status other than RUN (R343). -/
def State.Terminated (s : State) : Prop := s.status ≠ .run

/-- A safe end of a run: HALT, not FAULT (R327, R343). -/
def State.SafeEnd (s : State) : Prop := s.status = .halt

/-! ### Frames -/

/-- The shape of an entry, which nothing after construction changes (R35): its base, and its device but for the device's own
state. -/
def DeviceEntry.shape (d : DeviceEntry) : Option Word × Option (Nat × Word) :=
  (d.base, match d.device with
    | .cpu => none
    | .other id size _ => some (id, size))

/-- Every register but those listed holds in `t` what it held in `s`. -/
def RegsKept (s t : State) (changed : List Reg) : Prop := ∀ r, r ∉ changed → t.reg r = s.reg r

/-- What no instruction changes before the apply phase (R40, R73): every byte of the bus reads as before, and memory, the
offset, the devices, the platform parameters and the draw count are the same; `cs` is what was appended to the queue. -/
structure BusKept (s t : State) (cs : List Command) : Prop where
  bytes : ∀ a, busGet t a = busGet s a
  ram : t.ram = s.ram
  memSize : t.memSize = s.memSize
  offset : t.offset = s.offset
  devices : t.devices = s.devices
  ext : t.ext = s.ext
  draws : t.draws = s.draws
  queue : t.queue = s.queue ++ cs

/-- A fault taken in the poll phase (R142, R326, R329): the status records it, the queue is discarded, all else is kept. -/
def pollFault (s : State) (f : Fault) : State := { s with status := .fault f .poll, queue := [] }

/-! ### Flags -/

/-- The flags word after a flag update (R28, R29, R146), by bit number (R27): Z, P and S of the `n`-bit result `v`, the four
flags given, and every other bit, T among them, as before. -/
structure FlagsAre (old new v : Word) (n : Nat) (y ov gt lt : Bool) : Prop where
  zero : new.getLsbD 2 = decide (v = 0)
  even : new.getLsbD 6 = !v.getLsbD 0
  sign : new.getLsbD 3 = v.getLsbD (n - 1)
  carry : new.getLsbD 0 = y
  overflow : new.getLsbD 1 = ov
  greater : new.getLsbD 4 = gt
  less : new.getLsbD 5 = lt
  rest : new.extractLsb' 7 25 = old.extractLsb' 7 25

/-! ### Results of instructions -/

/-- A result `v` written to the register `dst` by the flag-setting write path (R147 to R150, R152), by an instruction of `len`
bytes whose result is `n` bits wide. PC as the destination receives the value, is then advanced, and no flag changes; FL as
the destination ends equal to the value; another destination receives the value and FL its flags. -/
structure RegisterResult (s t : State) (dst : Reg) (v : Word) (n : Nat) (y ov : Bool) (len : Nat) : Prop where
  value : dst ≠ .pc → t.reg dst = v
  pc : t.reg .pc = (if dst = .pc then v else s.reg .pc) + BitVec.ofNat 32 len
  flags : dst ≠ .pc → dst ≠ .fl → FlagsAre (s.reg .fl) (t.reg .fl) v n y ov false false
  flagsOfPc : dst = .pc → t.reg .fl = s.reg .fl
  regs : RegsKept s t [dst, .pc, .fl]
  status : t.status = s.status
  bus : BusKept s t []

/-- What a register holds after raw writes in order: the value written last, or what it held before. -/
def finalValue (s : State) (writes : List (Reg × Word)) (r : Reg) : Word :=
  writes.foldl (fun v w => if w.1 = r then w.2 else v) (s.reg r)

/-- A raw result: the registers listed, in order, receive values with no flag effect, PC is advanced by `len` from what it
then holds, every other register is kept, and `cs` is appended to the queue (R22, R152, R286). -/
structure RawResult (s t : State) (writes : List (Reg × Word)) (len : Nat) (cs : List Command) : Prop where
  regs : ∀ r, t.reg r = finalValue s writes r + (if r = .pc then BitVec.ofNat 32 len else 0)
  status : t.status = s.status
  bus : BusKept s t cs

/-- The end of a taken control transfer (R258): PC is the target exactly. -/
structure TransferResult (s t : State) (target : Word) (sp : Word) (cs : List Command) : Prop where
  pc : t.reg .pc = target
  sp : t.reg .sp = sp
  regs : RegsKept s t [.pc, .sp]
  status : t.status = s.status
  bus : BusKept s t cs

/-- What the apply phase makes of a state whose queue holds one command (R75, R76, R328): the command's bytes are written
and nothing else happens, or the first unreachable byte stops the write and the status records it; the registers are the
instruction's either way. -/
structure AppliesOne (t : State) (c : Command) : Prop where
  done : ∀ u, busWrite (t.setQueue []) c.addr.toNat c.bytes = (u, none) → applyPhase t = u ∧ u.regs = t.regs
  stopped : ∀ u f, busWrite (t.setQueue []) c.addr.toNat c.bytes = (u, some f) →
    applyPhase t = { u with status := .fault f .apply, queue := [] } ∧ u.regs = t.regs

/-- A store of the `n`-bit result `v` by the flag-setting write path (R147, R151): the flags of the result, PC advanced, one
command queued, nothing in memory changed yet; and what the apply phase then does with it. -/
structure StoreResult (s t : State) (v : Word) (n : Nat) (c : Command) (len : Nat) : Prop where
  flags : FlagsAre (s.reg .fl) (t.reg .fl) v n false false false false
  pc : t.reg .pc = s.reg .pc + BitVec.ofNat 32 len
  regs : RegsKept s t [.pc, .fl]
  status : t.status = s.status
  bus : BusKept s t [c]
  applied : s.queue = [] → AppliesOne t c

/-- The address a register-indirect destination stores to (R151): the register before the instruction, but FL after its
flag update. -/
def storeAddress (s t : State) (r : Reg) : Word := if r = .fl then t.reg .fl else s.reg r

/-- The result of `cmp` (R228): the flags of the difference, GT and LT of the unsigned comparison, PC advanced, nothing else. -/
structure CompareResult (s t : State) (a b : Word) (y ov : Bool) (len : Nat) : Prop where
  flags : FlagsAre (s.reg .fl) (t.reg .fl) (a - b) 32 y ov (decide (b.toNat < a.toNat)) (decide (a.toNat < b.toNat))
  pc : t.reg .pc = s.reg .pc + BitVec.ofNat 32 len
  regs : RegsKept s t [.pc, .fl]
  status : t.status = s.status
  bus : BusKept s t []

/-- An exact integer does not fit in 32 signed bits (R228). -/
def signedOverflow (n : Int) : Bool := decide (n < -2147483648 ∨ 2147483647 < n)

/-- The instruction has these bytes (R103, R111), and `exec` answers a next state of which `P` holds. -/
def Runs (i : Instr) (bytes : List Byte) (s : State) (P : State → Prop) : Prop :=
  encode i = bytes ∧ ∃ t, exec i s = .next t ∧ P t

/-! ### The apply phase -/

/-- Applying the commands in order, each completely, meets no fault and ends in `u` (R75). -/
def AppliedTo : List Command → State → State → Prop
  | [], s, u => u = s
  | c :: cs, s, u => ∃ m, busWrite s c.addr.toNat c.bytes = (m, none) ∧ AppliedTo cs m u

/-- What the apply phase does with a queue (R70, R75, R76): every command in order, or up to the first failing byte, which
the status records, the rest of the queue dropped. -/
structure AppliesAll (t : State) : Prop where
  done : ∀ u, AppliedTo t.queue (t.setQueue []) u → applyPhase t = u
  stopped : ∀ q c q' m u f, t.queue = q ++ c :: q' → AppliedTo q (t.setQueue []) m →
    busWrite m c.addr.toNat c.bytes = (u, some f) → applyPhase t = { u with status := .fault f .apply, queue := [] }

/-! ### Reading memory -/

/-- The bytes from address `a` up are readable, each through its own route, and are these (R57). -/
def Readable (s : State) (a : Nat) (bs : List Byte) : Prop := ∀ k b, bs[k]? = some b → byteAt s (a + k) = .ok b

/-- Of the `n` bytes from `a` up, byte `k` is the lowest that cannot be read (R57, R58). -/
def FirstUnreadable (s : State) (a n k : Nat) : Prop :=
  k < n ∧ (∀ j, j < k → ∃ b, byteAt s (a + j) = .ok b) ∧ ∀ b, byteAt s (a + k) ≠ .ok b

end Sys2Proof.Machine

namespace Sys2Proof

/-! ### Classes of instructions -/

/-- The registers an instruction writes as its destinations: the register-direct destinations it names, and A to L for
`pop.a` (R300). SP and PC, which some instructions also move, are not among them unless named. -/
def Instr.destinations (i : Instr) : List Reg :=
  match i.mnemonic, i.operands with
  | .swap, [.reg r1, .reg r2] => [r1, r2]
  | m, .reg r1 :: _ => if m.writesOperand1 then [r1] else []
  | .popA, _ => [.a, .b, .c, .d, .e, .f, .g, .h, .i, .j, .k, .l]
  | _, _ => []

/-- The conditional branches, `jmp`, `jsr` and `ret`: the instructions that can perform a taken control transfer (R258). -/
def Instr.mayTransfer (i : Instr) : Bool :=
  match i.mnemonic with
  | .bz | .bnz | .bneg | .bpos | .bgt | .bgte | .blt | .blte | .bv | .bnv | .jmp | .jsr | .ret => true
  | _ => false

/-- `sys`, `iret` and `sret` (R305). -/
def Instr.isExtension (i : Instr) : Bool :=
  match i.mnemonic with
  | .sys | .iret | .sret => true
  | _ => false

/-- An operand in memory. -/
def Operand.isMemory : Operand → Bool
  | .regInd _ | .memInd _ => true
  | .reg _ | .imm8 _ | .imm16 _ | .imm32 _ => false

/-- The instructions that read data from memory in the poll phase (R321, R345): a memory source, a pop, `ret`. -/
def Instr.readsMemory (i : Instr) : Bool :=
  match i.mnemonic with
  | .popb | .popw | .popd | .popA | .ret => true
  | _ => match i.operands with
    | [_, o2] => o2.isMemory
    | _ => false

/-- How many commands the instruction appends (R155, R345): twelve for `push.a`, one for a memory destination, another push
or `jsr`, none for the rest. -/
def Instr.commands (i : Instr) : Nat :=
  match i.mnemonic with
  | .pushA => 12
  | .pushb | .pushw | .pushd | .jsr => 1
  | _ => match i.operands with
    | o1 :: _ => if o1.isMemory then 1 else 0
    | [] => 0

/-- Which fault an instruction can raise in the poll phase, after decode, without an extension (R345). -/
def Instr.mayRaise (i : Instr) : Machine.Fault → Bool
  | .outOfRange _ => i.readsMemory
  | .divideByZero _ => i.mnemonic == .idiv || i.mnemonic == .mod
  | .extensionNotImplemented op => i.isExtension && op == i.opcode
  | .invalidMapping _ _ | .illegalInstruction _ | .invalidDestination => false

/-- The instructions that leave FL alone whatever their destination, a destination of FL itself apart (R362). -/
def Instr.keepsFlags (i : Instr) : Bool :=
  i.mayTransfer || match i.mnemonic with
  | .pushb | .pushw | .pushd | .pushA | .popb | .popw | .popd | .popA | .popx | .swap | .nop | .dbg | .halt => true
  | _ => match i.operands with
    | .reg .pc :: _ => i.mnemonic.writesOperand1
    | _ => false

/-- The unassigned opcode bytes (R112). -/
def unassignedOpcode (op : Byte) : Bool :=
  op == 0x00#8 || (0x10#8 ≤ op && op ≤ 0x19#8) || op == 0x3B#8 || op == 0x3C#8 || op == 0x3F#8 || op == 0x40#8 ||
    0x8C#8 ≤ op

/-- A register index that has a byte of its own: the byte's place and the register (R105). -/
def Instr.loneRegister (i : Instr) : Option (Nat × Reg) :=
  match i.operands with
  | [o] => o.register?.map fun r => (1, r)
  | [o1, o2] =>
    match o1.register?, o2.register? with
    | some r, none => some (1, r)
    | none, some r => some (5, r)
    | _, _ => none
  | _ => none

end Sys2Proof
end

