-- ==== Sys2Proof/Certificates/Slice0/Obligations.lean ====
section
/-! DEFINITION. The statements for the provers, each from the rules of spec/ named in OBLIGATIONS.json. The words they are
stated in (Runs, RegisterResult, StoreResult, RawResult, TransferResult, BusKept, Readable, FirstUnreadable, State.Inv and
the classes of instructions) are defined in Sys2Proof/Safety.lean. -/

open Sys2Proof Sys2Proof.Machine

/-- For every instruction with every operand value, a decoder that reads its encoded bytes answers it, and no byte
beyond its length is needed. -/
def Obligations.DecodeOfEncodeIsTheInstruction : Prop :=
  ∀ (i : Instr) (get : ByteReader), (∀ k b, (encode i)[k]? = some b → get k = some b) → decode get = .ok i

/-- Whatever bytes the decoder accepts are, as far as the instruction is long, exactly the encoding of the instruction
it answers. -/
def Obligations.EncodeOfDecodeIsTheBytesRead : Prop :=
  ∀ (i : Instr) (get : ByteReader), decode get = .ok i → ∀ k b, (encode i)[k]? = some b → get k = some b

/-- With an unassigned opcode byte at PC the CPU step takes IllegalInstruction of that byte and changes nothing; every
other byte is the opcode of an instruction, and 131 bytes are unassigned. -/
def Obligations.UnassignedOpcodesFault : Prop :=
  (∀ (s : State) (op : Byte), byteAt s (s.reg .pc).toNat = .ok op → unassignedOpcode op = true →
      cpuStep s = .next (pollFault s (.illegalInstruction op))) ∧
  (∀ i : Instr, unassignedOpcode i.opcode = false) ∧
  (∀ op : Byte, unassignedOpcode op = false → ∃ i : Instr, i.opcode = op) ∧
  ((List.range 256).filter fun n => unassignedOpcode (BitVec.ofNat 8 n)).length = 131

/-- In every instruction with a lone register byte that byte is the register's index with a zero high nibble; the same
instruction with that byte 0x10 or more in memory at PC takes IllegalInstruction of its opcode, whether or not later
bytes can be read. -/
def Obligations.LoneRegisterByteAboveFifteenFaults : Prop :=
  ∀ (i : Instr) (k : Nat) (r : Reg), i.loneRegister = some (k, r) →
    (encode i)[k]? = some (0#4 ++ r.index) ∧
    ∀ (s : State) (b : Byte),
      (∀ j c, j < k → (encode i)[j]? = some c → byteAt s ((s.reg .pc).toNat + j) = .ok c) →
      byteAt s ((s.reg .pc).toNat + k) = .ok b → 0x10 ≤ b.toNat →
      cpuStep s = .next (pollFault s (.illegalInstruction i.opcode))

/-- Every instruction with two operands of a register kind is two bytes, the second holding operand 1's index in the
high nibble and operand 2's in the low nibble; with any second byte at all its opcode decodes to an instruction with
that opcode and those two registers. -/
def Obligations.RegisterPairByteIsLegalAtEveryValue : Prop :=
  ∀ (i : Instr) (r1 r2 : Reg), i.operands.map Operand.register? = [some r1, some r2] →
    encode i = [i.opcode, r1.index ++ r2.index] ∧
    ∀ (get : ByteReader) (b : Byte), get 0 = some i.opcode → get 1 = some b →
      ∃ j : Instr, decode get = .ok j ∧ j.opcode = i.opcode ∧
        j.operands.map Operand.register? = [some (Reg.ofIndex (b.extractLsb' 4 4)), some (Reg.ofIndex (b.extractLsb' 0 4))]

/-- Assembling an instruction's term gives its encoding; two terms of one mnemonic and the same operand kinds assemble
to the same opcode and length; beq and bneq assemble as bz and bnz; each opcode has one row, and none is named beq or
bneq. -/
def Obligations.AssemblerFindsTheRowByKindsAlone : Prop :=
  (∀ i : Instr, assemble i.asm = some (encode i)) ∧
  (∀ (x y : AsmInstr) (bs : List Byte), x.mnemonic = y.mnemonic →
      x.operands.map Operand.kind = y.operands.map Operand.kind → assemble x = some bs →
      ∃ cs, assemble y = some cs ∧ cs.head? = bs.head? ∧ cs.length = bs.length) ∧
  (∀ ops, assemble ⟨.beq, ops⟩ = assemble ⟨.bz, ops⟩ ∧ assemble ⟨.bneq, ops⟩ = assemble ⟨.bnz, ops⟩) ∧
  (opcodeMap.map Row.opcode).Nodup ∧ ∀ row ∈ opcodeMap, row.mnemonic ≠ .beq ∧ row.mnemonic ≠ .bneq

/-- The bytes of one or two examples of each family in the spec decode to the instruction the example names. -/
def Obligations.SampleWordsDecode : Prop :=
  decodeTableWord 16 0x3201 = some (.movRR .d .c) ∧
  decodeTableWord 48 0xCAFEBABE0304 = some (.movRV32 .d 0xCAFEBABE#32) ∧
  decodeTableWord 24 0xA5000C = some (.movbIV8 .a 0xA5#8) ∧
  decodeTableWord 16 0x322D = some (.orRR .d .c) ∧
  decodeTableWord 32 0x10000344 = some (.addRV16 .d 0x1000#16) ∧
  decodeTableWord 16 0x3252 = some (.idivRR .d .c) ∧
  decodeTableWord 40 0x000012345D = some (.bzV32 0x1234#32) ∧
  decodeTableWord 16 0x0272 = some (.jsrR .c) ∧
  decodeTableWord 24 0xBEEF7B = some (.pushwV16 0xBEEF#16) ∧
  decodeTableWord 16 0x1084 = some (.popxV8 0x10#8) ∧
  decodeTableWord 16 0x0275 = some (.sysR .c) ∧
  decodeTableWord 8 0x00 = none ∧
  decodeTableWord 24 0xA51302 = none

/-- Every instruction is well formed; none that writes operand 1 has an immediate there; no instruction of the map takes
InvalidDestination; and the write path given an immediate raises it. -/
def Obligations.ImmediateIsNeverADestination : Prop :=
  (∀ i : Instr, i.WellFormed) ∧
  (∀ (i : Instr) (o : Operand), i.operands.head? = some o → i.mnemonic.writesOperand1 = true →
      o.kind.isImmediate = false) ∧
  (∀ (i : Instr) (s t : State) (p : Phase), s.ext = none ∨ i.isExtension = false → s.status = .run →
      exec i s = .next t → t.status ≠ .fault .invalidDestination p) ∧
  (∀ (o : Operand) (v : Word) (w : Width) (y ov : Bool) (s : State), o.kind.isImmediate = true →
      writeOp o v w s = .error .invalidDestination ∧ writeOpYV o v w y ov s = .error .invalidDestination)

/-- Two instructions with one opcode byte have one mnemonic, the same operand kinds and the same length; an
instruction's encoding has its length, from 1 to 9 bytes, and begins with its opcode byte. -/
def Obligations.OpcodeAloneDecidesTheLength : Prop :=
  (∀ i j : Instr, i.opcode = j.opcode →
      i.mnemonic = j.mnemonic ∧ i.operands.map Operand.kind = j.operands.map Operand.kind ∧ i.length = j.length) ∧
  ∀ i : Instr, (encode i).length = i.length ∧ 1 ≤ i.length ∧ i.length ≤ 9 ∧ (encode i).head? = some i.opcode

/-- Below 0xF0000000 a byte access reaches the physical index address plus offset if that is below MEM_SIZE: a read
gives that byte, a write is read back and changes no other address's byte; otherwise both raise OutOfRange of the
address. -/
def Obligations.RamByteIsAtAddressPlusOffset : Prop :=
  ∀ (s : State) (a : Nat) (v : Byte), s.ram.wf = true → a < 0xF0000000 →
    (a + s.offset.toNat < s.memSize →
      busGet s a = .ok (s.ram.read (a + s.offset.toNat)) ∧
      ∃ t, busSet s a v = .ok t ∧ t.ram.read (a + s.offset.toNat) = v ∧ busGet t a = .ok v ∧
        (∀ b, b ≠ a → busGet t b = busGet s b) ∧
        t.regs = s.regs ∧ t.offset = s.offset ∧ t.devices = s.devices ∧ t.memSize = s.memSize ∧ t.queue = s.queue ∧
        t.status = s.status) ∧
    (s.memSize ≤ a + s.offset.toNat →
      busGet s a = .error (.outOfRange a) ∧ busSet s a v = .error (.outOfRange a))

/-- Cell k reads byte k of the offset; writing it replaces that byte and leaves the other three, RAM and everything
else; a 32-bit write sets the whole offset whatever it was, is read back, moves no byte of RAM, and the next RAM access
is shifted by the new value. -/
def Obligations.OffsetRegisterIsFourByteCells : Prop :=
  ∀ (s : State) (k : Nat) (v : Byte) (x : Word), k < 4 →
    busGet s (0xF0000000 + k) = .ok (s.offset.extractLsb' (8 * k) 8) ∧
    (∃ t, busSet s (0xF0000000 + k) v = .ok t ∧ t = { s with offset := t.offset } ∧
      ∀ j, j < 4 → busGet t (0xF0000000 + j) = if j = k then .ok v else busGet s (0xF0000000 + j)) ∧
    ∃ u, busWrite s 0xF0000000 (bytes32 x) = (u, none) ∧ u = { s with offset := x } ∧
      memRead u 0xF0000000 4 = .ok x ∧
      ∀ a, a < 0xF0000000 →
        busGet u a = if a + x.toNat < s.memSize then .ok (s.ram.read (a + x.toNat)) else .error (.outOfRange a)

/-- A byte read and a byte write at an address of the gap raise OutOfRange of the address. -/
def Obligations.GapAccessesFault : Prop :=
  ∀ (s : State) (a : Nat) (v : Byte), 0xF0000004 ≤ a → a < 0xF0000100 →
    busGet s a = .error (.outOfRange a) ∧ busSet s a v = .error (.outOfRange a)

/-- An address at or above 0xF0000100 that a device's window covers and no earlier entry's does is read and written at
that device, at the address less its base, changing only that device's own state; where no window covers it both raise
OutOfRange; an unmapped entry and the CPU cover nothing. -/
def Obligations.FirstWindowInRegistrationOrderWins : Prop :=
  (∀ (s : State) (a : Nat) (v : Byte) (pre post : List DeviceEntry) (b : Word) (id : Nat) (size : Word)
      (st : DeviceState),
      0xF0000100 ≤ a → s.devices = pre ++ ⟨some b, .other id size st⟩ :: post →
      (∀ e ∈ pre, e.covers a = false) → b.toNat ≤ a → a < b.toNat + size.toNat →
      busGet s a = .ok (Config.deviceGet id st (a - b.toNat)) ∧
      busSet s a v =
        .ok { s with devices := pre ++ ⟨some b, .other id size (Config.deviceSet id st (a - b.toNat) v)⟩ :: post }) ∧
  (∀ (s : State) (a : Nat) (v : Byte), 0xF0000100 ≤ a → (∀ e ∈ s.devices, e.covers a = false) →
      busGet s a = .error (.outOfRange a) ∧ busSet s a v = .error (.outOfRange a)) ∧
  ∀ (a : Nat) (b : Option Word) (dev : Device),
    (⟨none, dev⟩ : DeviceEntry).covers a = false ∧ (⟨b, .cpu⟩ : DeviceEntry).covers a = false

/-- A read of 1, 2 or 4 readable bytes gives their little-endian value; a read of any number of bytes of which byte k is
the lowest unreachable one raises OutOfRange at address plus k; a byte address of 2^32 or more is unreachable and any
other is routed on its own. -/
def Obligations.CompositeReadIsLittleEndianAndDoesNotWrap : Prop :=
  ∀ (s : State) (addr : Nat),
    (∀ b0, Readable s addr [b0] → memRead s addr 1 = .ok (b0.setWidth 32)) ∧
    (∀ b0 b1, Readable s addr [b0, b1] → memRead s addr 2 = .ok ((b1 ++ b0).setWidth 32)) ∧
    (∀ b0 b1 b2 b3, Readable s addr [b0, b1, b2, b3] → memRead s addr 4 = .ok (b3 ++ b2 ++ b1 ++ b0)) ∧
    (∀ n k, FirstUnreadable s addr n k → memRead s addr n = .error (.outOfRange (addr + k))) ∧
    (2 ^ 32 ≤ addr → byteAt s addr = .error (.outOfRange addr)) ∧
    (addr < 2 ^ 32 → byteAt s addr = busGet s addr)

/-- After a 32-bit write of x whose four bytes lie in RAM the 32-bit read gives x, the byte at the address is the low
byte, the 16-bit read two bytes on is the high half, and every address outside the four bytes reads as before. -/
def Obligations.CompositeStoreInRamRoundTrips : Prop :=
  ∀ (s : State) (a : Nat) (x : Word), s.ram.wf = true → a + 4 ≤ 0xF0000000 → a + 3 + s.offset.toNat < s.memSize →
    ∃ t, busWrite s a (bytes32 x) = (t, none) ∧ memRead t a 4 = .ok x ∧ busGet t a = .ok (x.extractLsb' 0 8) ∧
      busGet t (a + 1) = .ok (x.extractLsb' 8 8) ∧ memRead t (a + 2) 2 = .ok ((x.extractLsb' 16 16).setWidth 32) ∧
      ∀ b, b < a ∨ a + 4 ≤ b → busGet t b = busGet s b

/-- The bytes are written one after another from the lowest address; where byte k cannot be written, for its address
being 2^32 or more or its byte write raising, the write ends with that fault in the state the first k bytes left. -/
def Obligations.CompositeWriteKeepsTheBytesBeforeAFault : Prop :=
  ∀ (s m : State) (a : Nat) (pre post : List Byte) (b : Byte), busWrite s a pre = (m, none) →
    (∀ f, a + pre.length < 2 ^ 32 → busSet m (a + pre.length) b = .error f →
      busWrite s a (pre ++ b :: post) = (m, some f)) ∧
    (2 ^ 32 ≤ a + pre.length → busWrite s a (pre ++ b :: post) = (m, some (.outOfRange (a + pre.length)))) ∧
    (∀ m', a + pre.length < 2 ^ 32 → busSet m (a + pre.length) b = .ok m' →
      busWrite s a (pre ++ [b]) = (m', none))

/-- When every earlier command of the queue applies, a last byte command to a reachable RAM address leaves its value
there, whatever the earlier commands wrote, and every other address as they left it. -/
def Obligations.LastWriterOfAStepWins : Prop :=
  ∀ (t m : State) (q : List Command) (a : Word) (v : Byte), t.ram.wf = true → t.queue = q ++ [.writeByte a v] →
    AppliedTo q (t.setQueue []) m → a.toNat < 0xF0000000 → a.toNat + m.offset.toNat < m.memSize →
    (applyPhase t).status = t.status ∧ busGet (applyPhase t) a.toNat = .ok v ∧
    ∀ b, b ≠ a.toNat → busGet (applyPhase t) b = busGet m b

/-- A queue that sets the offset to x and then stores a byte at a RAM address leaves the offset x and that byte at
physical index address plus x, whatever the offset was when it was queued; no other physical byte changes. -/
def Obligations.CommandsUseTheOffsetOfTheirMoment : Prop :=
  ∀ (t : State) (x a : Word) (v : Byte), t.ram.wf = true →
    t.queue = [.writeDword32 0xF0000000#32 x, .writeByte a v] → a.toNat < 0xF0000000 → a.toNat + x.toNat < t.memSize →
    (applyPhase t).offset = x ∧ (applyPhase t).status = t.status ∧
    (applyPhase t).ram.read (a.toNat + x.toNat) = v ∧
    ∀ n, n ≠ a.toNat + x.toNat → (applyPhase t).ram.read n = t.ram.read n

/-- For every state: if all commands apply in order the apply phase ends in the state the last one left; if a command
raises after those before it applied, the earlier bytes of it stay written, the status becomes FAULT of the apply phase
and the rest of the queue is dropped. -/
def Obligations.ApplyPhaseIsInOrderAndStopsAtAFault : Prop :=
  ∀ t : State, AppliesAll t

/-- If memory is canonical and within MEM_SIZE, MEM_SIZE is legal, the device table is well formed, the queue is empty
and the status is not FAULT of InvalidMapping or InvalidDestination, then all of it holds again after any step that
gives a next state. The canonical form of memory is the model's own (log entry 9). -/
def Obligations.StepKeepsTheInvariant : Prop :=
  ∀ s t : State, s.Inv → step s = .next t → t.Inv

/-- The invariant holds of the state after reset. Its MEM_SIZE is the model's choice (log entry 1), and so is the
canonical form of memory (log entry 9). -/
def Obligations.ResetMeetsTheInvariant : Prop :=
  State.reset.Inv

/-- In the state after reset all sixteen registers are 0, PC and FL among them, the offset is 0, every physical byte is
0, the queue is empty, the status is RUN, and the default construction gives this state. -/
def Obligations.ResetLeavesZerosAndRun : Prop :=
  (∀ r, State.reset.reg r = 0) ∧ State.reset.offset = 0 ∧ (∀ n, State.reset.ram.read n = 0) ∧
  State.reset.queue = [] ∧ State.reset.status = .run ∧ construct Platform.default = .ok State.reset

/-- A construction answers InvalidMapping of its first ill-placed entry, or a state with the given registers, memory
size and device table, offset 0, an empty queue, status RUN, canonical memory within MEM_SIZE, all zero where nothing is
loaded and holding each byte loaded last. The model's choices here: that it also succeeds on a table with no CPU or two
and on any MEM_SIZE (log entry 6), the canonical form of memory (log entry 9), and RAM_INIT as a list of loads of which
the last to an index wins (log entry 7). -/
def Obligations.ConstructionBuildsTheGivenPlatform : Prop :=
  (∀ p : Platform, (∀ e ∈ p.devices, e.placed = true) → ∃ s, construct p = .ok s) ∧
  (∀ (p : Platform) (pre post : List DeviceEntry) (b : Word) (dev : Device), p.devices = pre ++ ⟨some b, dev⟩ :: post →
      (∀ e ∈ pre, e.placed = true) → b.toNat < 0xF0000100 ∨ 2 ^ 32 < b.toNat + dev.size →
      construct p = .error (.invalidMapping b dev.size)) ∧
  ∀ (p : Platform) (s : State), construct p = .ok s →
    s.offset = 0 ∧ s.status = .run ∧ s.queue = [] ∧ s.regs = p.regInit ∧ s.devices = p.devices ∧ s.memSize = p.memSize ∧
    s.ext = p.ext ∧ s.ram.wf = true ∧ s.ram.below s.memSize = true ∧
    (∀ n, (∀ c ∈ p.ramInit, c.1 ≠ n) → s.ram.read n = 0) ∧
    (∀ cs cs' n b, p.ramInit = cs ++ (n, b) :: cs' → (∀ c ∈ cs', c.1 ≠ n) → n < p.memSize → s.ram.read n = b)

/-- A device given a legal base is registered last and its base plus size returned; an illegal base is InvalidMapping
and nothing is registered; without a base it is registered unmapped; install_cpu registers the CPU and returns its base;
and a byte of the new window is the device's, if no earlier window covers it. -/
def Obligations.AddDeviceChecksTheBaseAndRegistersLast : Prop :=
  ∀ (s : State) (dev : Device) (b : Word),
    (0xF0000100 ≤ b.toNat → b.toNat + dev.size ≤ 2 ^ 32 →
      addDevice s dev (some b) = .ok ({ s with devices := s.devices ++ [⟨some b, dev⟩] }, some (b.toNat + dev.size))) ∧
    (b.toNat < 0xF0000100 ∨ 2 ^ 32 < b.toNat + dev.size →
      addDevice s dev (some b) = .error (.invalidMapping b dev.size)) ∧
    (∃ next, addDevice s dev none = .ok ({ s with devices := s.devices ++ [⟨none, dev⟩] }, next)) ∧
    (0xF0000100 ≤ b.toNat →
      installCpu s b = .ok ({ s with devices := s.devices ++ [⟨some b, .cpu⟩] }, some b.toNat)) ∧
    (b.toNat < 0xF0000100 → installCpu s b = .error (.invalidMapping b 0)) ∧
    ∀ (t : State) (next : Option Nat) (id k : Nat) (size : Word) (st : DeviceState), dev = .other id size st →
      addDevice s dev (some b) = .ok (t, next) → k < size.toNat → (∀ e ∈ s.devices, e.covers (b.toNat + k) = false) →
      busGet t (b.toNat + k) = .ok (Config.deviceGet id st k)

/-- A step that gives a next state keeps MEM_SIZE and EXT_SEM, and every entry of the device table keeps its place, its
base, its kind and its size. -/
def Obligations.StepKeepsThePlatform : Prop :=
  ∀ s t : State, step s = .next t →
    t.memSize = s.memSize ∧ t.ext = s.ext ∧ t.devices.map DeviceEntry.shape = s.devices.map DeviceEntry.shape

/-- For every instruction and state, exec answers a next state which is the poll fault of some kind with nothing else
changed, or one in which every byte of the bus, the offset, the devices and the platform are as before and commands were
appended to the queue. -/
def Obligations.ExecOnlyQueuesItsStores : Prop :=
  ∀ (i : Instr) (s : State),
    ∃ t, exec i s = .next t ∧ ((∃ f, t = pollFault s f) ∨ ∃ cs, BusKept s t cs)

/-- With a well-formed device table and a status other than FAULT a step gives a next state and makes one draw of
ELAPSED; a fault that the CPU, an extension or another device raised in its poll phase is no InvalidMapping and no
InvalidDestination, and an OutOfRange names a byte address that could not be read when the step began; with a table that
is not well formed the step is refused by name. The refusal is the model's choice (log entry 6). -/
def Obligations.StepAnswersOnWellFormedTables : Prop :=
  ∀ s : State, s.status.isFault = false →
    (deviceTableOk s.devices = true → ∃ t, step s = .next t ∧ t.draws = s.draws + 1) ∧
    (∀ t f, step s = .next t → t.status = .fault f .poll → f.Caused s) ∧
    (deviceTableOk s.devices = false → step s = .refused .illFormedDeviceTable)

/-- When the step of a running CPU ends in FAULT, the phase is the poll phase and the state differs from the one before
in the status and the discarded queue only. -/
def Obligations.CpuFaultsChangeNothing : Prop :=
  ∀ (s t : State) (f : Fault) (p : Phase), s.status = .run → cpuStep s = .next t → t.status = .fault f p →
    p = .poll ∧ t = pollFault s f

/-- From a state whose status is FAULT any number of steps gives that same state. -/
def Obligations.FaultIsAbsorbing : Prop :=
  ∀ (n : Nat) (s : State) (f : Fault) (p : Phase), s.status = .fault f p → Sys2Proof.core.run n s = .next s

/-- halt sets the status HALT; the poll of a halted CPU changes nothing; no step from HALT changes a register or answers
RUN; and with the CPU the only device such a step changes nothing but the draw count. -/
def Obligations.HaltedCpuDoesNothing : Prop :=
  (∀ s, ∃ t, exec .halt s = .next t ∧ t.status = .halt) ∧
  ∀ s : State, s.status = .halt →
    cpuPoll s = .next s ∧
    (∀ t, step s = .next t → t.regs = s.regs ∧ (t.status = .halt ∨ ∃ f p, t.status = .fault f p)) ∧
    ∀ base, s.devices = [⟨base, .cpu⟩] → deviceTableOk s.devices = true →
      step s = .next { s with queue := [], draws := s.draws + 1 }

/-- When the bytes at PC are an instruction's encoding, the status is RUN and the CPU is the only device, the step is
exec of that instruction in the state with the queue emptied and ELAPSED drawn, followed by the apply phase unless it
faulted. -/
def Obligations.StepRunsTheDecodedInstruction : Prop :=
  ∀ (s : State) (i : Instr) (base : Option Word), s.devices = [⟨base, .cpu⟩] → deviceTableOk s.devices = true →
    s.status = .run → Readable s (s.reg .pc).toNat (encode i) →
    ∃ t, exec i s.beginStep = .next t ∧ step s = .next (endStep t)

/-- If the devices before the CPU poll without fault, the CPU then executes the instruction whose bytes stood at PC when
the step began, in the state that holds their commands; its fault ends the poll there, otherwise the devices after it
are polled next. -/
def Obligations.CpuRunsAtItsPlaceInRegistrationOrder : Prop :=
  ∀ (s m t : State) (i : Instr) (base : Option Word) (pre pre' post : List DeviceEntry),
    s.devices = pre ++ ⟨base, .cpu⟩ :: post → (∀ e ∈ pre, e.device.isCpu = false) → s.status = .run →
    Readable s (s.reg .pc).toNat (encode i) →
    pollDevices pre s.beginStep = (.next m, pre') → m.status = .run → exec i m = .next t →
    pollDevices s.devices s.beginStep =
      if t.status.isFault then (.next t, pre' ++ ⟨base, .cpu⟩ :: post)
      else ((pollDevices post t).1, pre' ++ ⟨base, .cpu⟩ :: (pollDevices post t).2)

/-- An instruction whose bytes at PC can all be read is fetched; one whose first k bytes are there and whose byte k
cannot be read makes the CPU step take OutOfRange at PC plus k, past the top of the address space too, with nothing else
changed. -/
def Obligations.FetchReportsTheLowestFailingByte : Prop :=
  ∀ (s : State) (i : Instr),
    (Readable s (s.reg .pc).toNat (encode i) → fetch s = .ok i) ∧
    ∀ k, k < i.length → (∀ j b, j < k → (encode i)[j]? = some b → byteAt s ((s.reg .pc).toNat + j) = .ok b) →
      (∀ b, byteAt s ((s.reg .pc).toNat + k) ≠ .ok b) →
      cpuStep s = .next (pollFault s (.outOfRange ((s.reg .pc).toNat + k)))

/-- For every instruction that does not name FL as a destination, bits 31 to 7 of FL are after it what they were before.
An extension's own effect is not covered. -/
def Obligations.FlagStorageBitsAreKept : Prop :=
  ∀ (i : Instr) (s t : State), s.ext = none ∨ i.isExtension = false → Reg.fl ∉ i.destinations →
    exec i s = .next t → (t.reg .fl).extractLsb' 7 25 = (s.reg .fl).extractLsb' 7 25

/-- An instruction of the list that does not name FL as a destination leaves all of FL as it was; any other one that
completes, cmp apart, and does not name FL as a destination clears GT and LT. -/
def Obligations.OnlyTheseInstructionsLeaveTheFlags : Prop :=
  ∀ (i : Instr) (s t : State), i.isExtension = false → Reg.fl ∉ i.destinations → exec i s = .next t →
    (i.keepsFlags = true → t.reg .fl = s.reg .fl) ∧
    (i.keepsFlags = false → i.mnemonic ≠ .cmp → t.status.isFault = false →
      (t.reg .fl).getLsbD 4 = false ∧ (t.reg .fl).getLsbD 5 = false)

/-- For every instruction that cannot transfer control and does not name PC as a destination, PC afterwards is PC before
plus the instruction's length, unless it took a fault, in which case PC is unchanged. -/
def Obligations.PcAdvancesByTheLength : Prop :=
  ∀ (i : Instr) (s t : State), i.isExtension = false → i.mayTransfer = false → Reg.pc ∉ i.destinations →
    exec i s = .next t →
    t.reg .pc = s.reg .pc + BitVec.ofNat 32 i.length ∨ ∃ f, t = pollFault s f

/-- A fault an instruction takes is of the poll phase and of a kind the table gives it: a data read, a division, or an
extension that is not there; an instruction that completes appends no command, one, or twelve for push.a, as the table
says. -/
def Obligations.EachInstructionRaisesOnlyItsFaults : Prop :=
  ∀ (i : Instr) (s t : State), s.ext = none ∨ i.isExtension = false → s.status = .run → exec i s = .next t →
    (∀ f p, t.status = .fault f p → p = .poll ∧ i.mayRaise f = true) ∧
    (t.status.isFault = false → ∃ cs, t.queue = s.queue ++ cs ∧ cs.length = i.commands)

/-- With a stack slot of 48 bytes in RAM, push.a, its stores applied, and then pop.a leave A to L, SP, FP and FL as they
were and PC two bytes on. -/
def Obligations.PushAllThenPopAllRestores : Prop :=
  ∀ s : State, s.ram.wf = true → s.queue = [] → 48 ≤ (s.reg .sp).toNat → (s.reg .sp).toNat ≤ 0xF0000000 →
    (s.reg .sp).toNat + s.offset.toNat ≤ s.memSize →
    ∃ t u, exec .pushA s = .next t ∧ exec .popA (applyPhase t) = .next u ∧ u.status = s.status ∧
      u.reg .pc = s.reg .pc + 2 ∧ ∀ r, r ≠ .pc → u.reg r = s.reg r

/-- With a stack slot of 4 bytes in RAM, jsr to any target, its store applied, and then ret leave PC at the address
after the jsr and every other register as it was. -/
def Obligations.CallThenReturnComesBack : Prop :=
  ∀ (s : State) (target : Word), s.ram.wf = true → s.queue = [] → 4 ≤ (s.reg .sp).toNat →
    (s.reg .sp).toNat ≤ 0xF0000000 → (s.reg .sp).toNat + s.offset.toNat ≤ s.memSize →
    ∃ t u, exec (.jsrV32 target) s = .next t ∧ t.reg .pc = target ∧ exec .ret (applyPhase t) = .next u ∧
      u.status = s.status ∧ u.reg .pc = s.reg .pc + 5 ∧ ∀ r, r ≠ .pc → u.reg r = s.reg r

/-- With the CPU the only device, an instruction that completes with one queued store whose bytes lie in RAM has changed
no byte when exec ends; after the step the stored bytes read as the command's bytes, every other address reads as before
the step, and the registers are the instruction's. -/
def Obligations.StoreIsVisibleAfterItsStepOnly : Prop :=
  ∀ (s t : State) (i : Instr) (base : Option Word) (c : Command), s.ram.wf = true → s.devices = [⟨base, .cpu⟩] →
    deviceTableOk s.devices = true → s.status = .run → Readable s (s.reg .pc).toNat (encode i) →
    exec i s.beginStep = .next t → t.status = .run → t.queue = [c] →
    c.addr.toNat + c.bytes.length ≤ 0xF0000000 → c.addr.toNat + c.bytes.length + s.offset.toNat ≤ s.memSize →
    (∀ a, busGet t a = busGet s a) ∧
    ∃ u, step s = .next u ∧ u.regs = t.regs ∧ u.status = .run ∧ u.queue = [] ∧ u.offset = s.offset ∧
      (∀ k b, c.bytes[k]? = some b → busGet u (c.addr.toNat + k) = .ok b) ∧
      ∀ a, a < c.addr.toNat ∨ c.addr.toNat + c.bytes.length ≤ a → busGet u a = busGet s a

/-- Each of the four mov instructions has its encoding and completes in every state, writing operand 2's zero-extended
value with the flags of the 32-bit value; PC as destination is then advanced and no flag changes; FL as destination ends
equal to the value; nothing else changes. -/
def Obligations.MovCopiesWithFlags : Prop :=
  ∀ (s : State) (r1 r2 : Reg) (v8 : BitVec 8) (v16 : BitVec 16) (v32 : Word),
    (Runs (.movRR r1 r2) [0x01#8, r1.index ++ r2.index] s fun t =>
      RegisterResult s t r1 (s.reg r2) 32 false false 2) ∧
    (Runs (.movRV8 r1 v8) [0x02#8, 0#4 ++ r1.index, v8] s fun t =>
      RegisterResult s t r1 (v8.setWidth 32) 32 false false 3) ∧
    (Runs (.movRV16 r1 v16) (0x03#8 :: (0#4 ++ r1.index) :: bytes16 v16) s fun t =>
      RegisterResult s t r1 (v16.setWidth 32) 32 false false 4) ∧
    (Runs (.movRV32 r1 v32) (0x04#8 :: (0#4 ++ r1.index) :: bytes32 v32) s fun t =>
      RegisterResult s t r1 (v32) 32 false false 6)

/-- Each load has its encoding; where the four bytes from the source address up are readable it completes and writes the
low 1, 2 or 4 of them, zero-extended, with flags at that width; where byte k of the four is the lowest unreachable one
it takes OutOfRange there and changes nothing. The opcode numbers are those of the spec, whose decision D12 gives most
of them. -/
def Obligations.LoadsReadFourBytesAndZeroExtend : Prop :=
  ∀ (s : State) (r1 r2 : Reg) (addr2 : Word) (b0 b1 b2 b3 : Byte) (k : Nat),
    (Readable s (s.reg r2).toNat [b0, b1, b2, b3] →
      Runs (.movbRI r1 r2) [0x05#8, r1.index ++ r2.index] s fun t =>
        RegisterResult s t r1 (b0.setWidth 32) 8 false false 2) ∧
    (FirstUnreadable s (s.reg r2).toNat 4 k →
      exec (.movbRI r1 r2) s = .next (pollFault s (.outOfRange ((s.reg r2).toNat + k)))) ∧
    (Readable s addr2.toNat [b0, b1, b2, b3] →
      Runs (.movbRM r1 addr2) (0x06#8 :: (0#4 ++ r1.index) :: bytes32 addr2) s fun t =>
        RegisterResult s t r1 (b0.setWidth 32) 8 false false 6) ∧
    (FirstUnreadable s addr2.toNat 4 k →
      exec (.movbRM r1 addr2) s = .next (pollFault s (.outOfRange (addr2.toNat + k)))) ∧
    (Readable s (s.reg r2).toNat [b0, b1, b2, b3] →
      Runs (.movwRI r1 r2) [0x07#8, r1.index ++ r2.index] s fun t =>
        RegisterResult s t r1 ((b1 ++ b0).setWidth 32) 16 false false 2) ∧
    (FirstUnreadable s (s.reg r2).toNat 4 k →
      exec (.movwRI r1 r2) s = .next (pollFault s (.outOfRange ((s.reg r2).toNat + k)))) ∧
    (Readable s addr2.toNat [b0, b1, b2, b3] →
      Runs (.movwRM r1 addr2) (0x08#8 :: (0#4 ++ r1.index) :: bytes32 addr2) s fun t =>
        RegisterResult s t r1 ((b1 ++ b0).setWidth 32) 16 false false 6) ∧
    (FirstUnreadable s addr2.toNat 4 k →
      exec (.movwRM r1 addr2) s = .next (pollFault s (.outOfRange (addr2.toNat + k)))) ∧
    (Readable s (s.reg r2).toNat [b0, b1, b2, b3] →
      Runs (.movdRI r1 r2) [0x09#8, r1.index ++ r2.index] s fun t =>
        RegisterResult s t r1 (b3 ++ b2 ++ b1 ++ b0) 32 false false 2) ∧
    (FirstUnreadable s (s.reg r2).toNat 4 k →
      exec (.movdRI r1 r2) s = .next (pollFault s (.outOfRange ((s.reg r2).toNat + k)))) ∧
    (Readable s addr2.toNat [b0, b1, b2, b3] →
      Runs (.movdRM r1 addr2) (0x0A#8 :: (0#4 ++ r1.index) :: bytes32 addr2) s fun t =>
        RegisterResult s t r1 (b3 ++ b2 ++ b1 ++ b0) 32 false false 6) ∧
    (FirstUnreadable s addr2.toNat 4 k →
      exec (.movdRM r1 addr2) s = .next (pollFault s (.outOfRange (addr2.toNat + k))))

/-- Each of these stores has its encoding and completes in every state with the flags of the truncated value, PC
advanced, memory unchanged and exactly one command of its width and value queued at the register's value, FL's after the
flag update; the apply phase writes the command's bytes, or stops at the first unreachable one with the flags and PC
already changed. The opcode numbers are those of the spec, whose decision D12 gives most of them. -/
def Obligations.StoresToRegisterAddress : Prop :=
  ∀ (s : State) (r1 r2 : Reg) (v8 : BitVec 8) (v16 : BitVec 16) (v32 : Word),
    (Runs (.movbIR r1 r2) [0x0B#8, r1.index ++ r2.index] s fun t =>
      StoreResult s t (((s.reg r2).setWidth 8).setWidth 32) 8 (.writeByte (storeAddress s t r1) ((s.reg r2).setWidth 8)) 2) ∧
    (Runs (.movbIV8 r1 v8) [0x0C#8, 0#4 ++ r1.index, v8] s fun t =>
      StoreResult s t (v8.setWidth 32) 8 (.writeByte (storeAddress s t r1) (v8)) 3) ∧
    (Runs (.movwIR r1 r2) [0x0F#8, r1.index ++ r2.index] s fun t =>
      StoreResult s t (((s.reg r2).setWidth 16).setWidth 32) 16 (.writeWord16 (storeAddress s t r1) ((s.reg r2).setWidth 16)) 2) ∧
    (Runs (.movwIV16 r1 v16) (0x1A#8 :: (0#4 ++ r1.index) :: bytes16 v16) s fun t =>
      StoreResult s t (v16.setWidth 32) 16 (.writeWord16 (storeAddress s t r1) (v16)) 4) ∧
    (Runs (.movdIR r1 r2) [0x1D#8, r1.index ++ r2.index] s fun t =>
      StoreResult s t (s.reg r2) 32 (.writeDword32 (storeAddress s t r1) (s.reg r2)) 2) ∧
    (Runs (.movdIV32 r1 v32) (0x1E#8 :: (0#4 ++ r1.index) :: bytes32 v32) s fun t =>
      StoreResult s t (v32) 32 (.writeDword32 (storeAddress s t r1) (v32)) 6)

/-- Each of these moves has its encoding; where the four source bytes are readable it completes like the store of their
low part, the value read before anything is written; where byte k of the four is the lowest unreachable one it takes
OutOfRange there and changes nothing. The opcode numbers are those of the spec, whose decision D12 gives most of them.
-/
def Obligations.MemoryToMemoryStoresToRegisterAddress : Prop :=
  ∀ (s : State) (r1 r2 : Reg) (addr2 : Word) (b0 b1 b2 b3 : Byte) (k : Nat),
    (Readable s (s.reg r2).toNat [b0, b1, b2, b3] →
      Runs (.movbII r1 r2) [0x0D#8, r1.index ++ r2.index] s fun t =>
        StoreResult s t (b0.setWidth 32) 8 (.writeByte (storeAddress s t r1) (b0)) 2) ∧
    (FirstUnreadable s (s.reg r2).toNat 4 k →
      exec (.movbII r1 r2) s = .next (pollFault s (.outOfRange ((s.reg r2).toNat + k)))) ∧
    (Readable s addr2.toNat [b0, b1, b2, b3] →
      Runs (.movbIM r1 addr2) (0x0E#8 :: (0#4 ++ r1.index) :: bytes32 addr2) s fun t =>
        StoreResult s t (b0.setWidth 32) 8 (.writeByte (storeAddress s t r1) (b0)) 6) ∧
    (FirstUnreadable s addr2.toNat 4 k →
      exec (.movbIM r1 addr2) s = .next (pollFault s (.outOfRange (addr2.toNat + k)))) ∧
    (Readable s (s.reg r2).toNat [b0, b1, b2, b3] →
      Runs (.movwII r1 r2) [0x1B#8, r1.index ++ r2.index] s fun t =>
        StoreResult s t ((b1 ++ b0).setWidth 32) 16 (.writeWord16 (storeAddress s t r1) (b1 ++ b0)) 2) ∧
    (FirstUnreadable s (s.reg r2).toNat 4 k →
      exec (.movwII r1 r2) s = .next (pollFault s (.outOfRange ((s.reg r2).toNat + k)))) ∧
    (Readable s addr2.toNat [b0, b1, b2, b3] →
      Runs (.movwIM r1 addr2) (0x1C#8 :: (0#4 ++ r1.index) :: bytes32 addr2) s fun t =>
        StoreResult s t ((b1 ++ b0).setWidth 32) 16 (.writeWord16 (storeAddress s t r1) (b1 ++ b0)) 6) ∧
    (FirstUnreadable s addr2.toNat 4 k →
      exec (.movwIM r1 addr2) s = .next (pollFault s (.outOfRange (addr2.toNat + k)))) ∧
    (Readable s (s.reg r2).toNat [b0, b1, b2, b3] →
      Runs (.movdII r1 r2) [0x1F#8, r1.index ++ r2.index] s fun t =>
        StoreResult s t (b3 ++ b2 ++ b1 ++ b0) 32 (.writeDword32 (storeAddress s t r1) (b3 ++ b2 ++ b1 ++ b0)) 2) ∧
    (FirstUnreadable s (s.reg r2).toNat 4 k →
      exec (.movdII r1 r2) s = .next (pollFault s (.outOfRange ((s.reg r2).toNat + k)))) ∧
    (Readable s addr2.toNat [b0, b1, b2, b3] →
      Runs (.movdIM r1 addr2) (0x20#8 :: (0#4 ++ r1.index) :: bytes32 addr2) s fun t =>
        StoreResult s t (b3 ++ b2 ++ b1 ++ b0) 32 (.writeDword32 (storeAddress s t r1) (b3 ++ b2 ++ b1 ++ b0)) 6) ∧
    (FirstUnreadable s addr2.toNat 4 k →
      exec (.movdIM r1 addr2) s = .next (pollFault s (.outOfRange (addr2.toNat + k))))

/-- Each of these stores has its encoding and completes in every state with the flags of the truncated value, PC
advanced, memory unchanged and exactly one command of its width and value queued at the embedded address; the apply
phase writes the command's bytes, or stops at the first unreachable one with the flags and PC already changed. The
opcode numbers are those of the spec, whose decision D12 gives most of them. -/
def Obligations.StoresToEmbeddedAddress : Prop :=
  ∀ (s : State) (r2 : Reg) (addr : Word) (v8 : BitVec 8) (v16 : BitVec 16) (v32 : Word),
    (Runs (.movbMR addr r2) (0x21#8 :: bytes32 addr ++ [0#4 ++ r2.index]) s fun t =>
      StoreResult s t (((s.reg r2).setWidth 8).setWidth 32) 8 (.writeByte addr ((s.reg r2).setWidth 8)) 6) ∧
    (Runs (.movbMV8 addr v8) (0x22#8 :: bytes32 addr ++ [v8]) s fun t =>
      StoreResult s t (v8.setWidth 32) 8 (.writeByte addr (v8)) 6) ∧
    (Runs (.movwMR addr r2) (0x25#8 :: bytes32 addr ++ [0#4 ++ r2.index]) s fun t =>
      StoreResult s t (((s.reg r2).setWidth 16).setWidth 32) 16 (.writeWord16 addr ((s.reg r2).setWidth 16)) 6) ∧
    (Runs (.movwMV16 addr v16) (0x26#8 :: bytes32 addr ++ bytes16 v16) s fun t =>
      StoreResult s t (v16.setWidth 32) 16 (.writeWord16 addr (v16)) 7) ∧
    (Runs (.movdMR addr r2) (0x29#8 :: bytes32 addr ++ [0#4 ++ r2.index]) s fun t =>
      StoreResult s t (s.reg r2) 32 (.writeDword32 addr (s.reg r2)) 6) ∧
    (Runs (.movdMV32 addr v32) (0x2A#8 :: bytes32 addr ++ bytes32 v32) s fun t =>
      StoreResult s t (v32) 32 (.writeDword32 addr (v32)) 9)

/-- Each of these moves has its encoding; where the four source bytes are readable it completes like the store of their
low part, the value read before anything is written; where byte k of the four is the lowest unreachable one it takes
OutOfRange there and changes nothing. The opcode numbers are those of the spec, whose decision D12 gives most of them.
-/
def Obligations.MemoryToMemoryStoresToEmbeddedAddress : Prop :=
  ∀ (s : State) (r2 : Reg) (addr addr2 : Word) (b0 b1 b2 b3 : Byte) (k : Nat),
    (Readable s (s.reg r2).toNat [b0, b1, b2, b3] →
      Runs (.movbMI addr r2) (0x23#8 :: bytes32 addr ++ [0#4 ++ r2.index]) s fun t =>
        StoreResult s t (b0.setWidth 32) 8 (.writeByte addr (b0)) 6) ∧
    (FirstUnreadable s (s.reg r2).toNat 4 k →
      exec (.movbMI addr r2) s = .next (pollFault s (.outOfRange ((s.reg r2).toNat + k)))) ∧
    (Readable s addr2.toNat [b0, b1, b2, b3] →
      Runs (.movbMM addr addr2) (0x24#8 :: bytes32 addr ++ bytes32 addr2) s fun t =>
        StoreResult s t (b0.setWidth 32) 8 (.writeByte addr (b0)) 9) ∧
    (FirstUnreadable s addr2.toNat 4 k →
      exec (.movbMM addr addr2) s = .next (pollFault s (.outOfRange (addr2.toNat + k)))) ∧
    (Readable s (s.reg r2).toNat [b0, b1, b2, b3] →
      Runs (.movwMI addr r2) (0x27#8 :: bytes32 addr ++ [0#4 ++ r2.index]) s fun t =>
        StoreResult s t ((b1 ++ b0).setWidth 32) 16 (.writeWord16 addr (b1 ++ b0)) 6) ∧
    (FirstUnreadable s (s.reg r2).toNat 4 k →
      exec (.movwMI addr r2) s = .next (pollFault s (.outOfRange ((s.reg r2).toNat + k)))) ∧
    (Readable s addr2.toNat [b0, b1, b2, b3] →
      Runs (.movwMM addr addr2) (0x28#8 :: bytes32 addr ++ bytes32 addr2) s fun t =>
        StoreResult s t ((b1 ++ b0).setWidth 32) 16 (.writeWord16 addr (b1 ++ b0)) 9) ∧
    (FirstUnreadable s addr2.toNat 4 k →
      exec (.movwMM addr addr2) s = .next (pollFault s (.outOfRange (addr2.toNat + k)))) ∧
    (Readable s (s.reg r2).toNat [b0, b1, b2, b3] →
      Runs (.movdMI addr r2) (0x2B#8 :: bytes32 addr ++ [0#4 ++ r2.index]) s fun t =>
        StoreResult s t (b3 ++ b2 ++ b1 ++ b0) 32 (.writeDword32 addr (b3 ++ b2 ++ b1 ++ b0)) 6) ∧
    (FirstUnreadable s (s.reg r2).toNat 4 k →
      exec (.movdMI addr r2) s = .next (pollFault s (.outOfRange ((s.reg r2).toNat + k)))) ∧
    (Readable s addr2.toNat [b0, b1, b2, b3] →
      Runs (.movdMM addr addr2) (0x2C#8 :: bytes32 addr ++ bytes32 addr2) s fun t =>
        StoreResult s t (b3 ++ b2 ++ b1 ++ b0) 32 (.writeDword32 addr (b3 ++ b2 ++ b1 ++ b0)) 9) ∧
    (FirstUnreadable s addr2.toNat 4 k →
      exec (.movdMM addr addr2) s = .next (pollFault s (.outOfRange (addr2.toNat + k))))

/-- swap has its encoding and completes in every state: operand 1 gets operand 2's old value, then operand 2 operand 1's
old value, no flag changes unless FL is named, PC is advanced by 2 on top, nothing else changes. The opcode numbers are
those of the spec, whose decision D12 gives most of them. -/
def Obligations.SwapExchangesRaw : Prop :=
  ∀ (s : State) (r1 r2 : Reg),
    Runs (.swapRR r1 r2) [0x8A#8, r1.index ++ r2.index] s fun t =>
      RawResult s t [(r1, s.reg r2), (r2, s.reg r1)] 2 []

/-- Each of the twelve has its encoding and completes in every state, writing the bitwise result of the register and the
zero-extended operand 2 with the flags of the 32-bit result, Y, V, GT and LT cleared; PC as destination changes no flag;
FL ends equal to the result. The opcode numbers are those of the spec, whose decision D12 gives most of them. -/
def Obligations.OrXorAndResults : Prop :=
  ∀ (s : State) (r1 r2 : Reg) (v8 : BitVec 8) (v16 : BitVec 16) (v32 : Word),
    (Runs (.orRR r1 r2) [0x2D#8, r1.index ++ r2.index] s fun t =>
      RegisterResult s t r1 (s.reg r1 ||| s.reg r2) 32 false false 2) ∧
    (Runs (.orRV8 r1 v8) [0x2E#8, 0#4 ++ r1.index, v8] s fun t =>
      RegisterResult s t r1 (s.reg r1 ||| v8.setWidth 32) 32 false false 3) ∧
    (Runs (.orRV16 r1 v16) (0x2F#8 :: (0#4 ++ r1.index) :: bytes16 v16) s fun t =>
      RegisterResult s t r1 (s.reg r1 ||| v16.setWidth 32) 32 false false 4) ∧
    (Runs (.orRV32 r1 v32) (0x30#8 :: (0#4 ++ r1.index) :: bytes32 v32) s fun t =>
      RegisterResult s t r1 (s.reg r1 ||| v32) 32 false false 6) ∧
    (Runs (.xorRR r1 r2) [0x31#8, r1.index ++ r2.index] s fun t =>
      RegisterResult s t r1 (s.reg r1 ^^^ s.reg r2) 32 false false 2) ∧
    (Runs (.xorRV8 r1 v8) [0x32#8, 0#4 ++ r1.index, v8] s fun t =>
      RegisterResult s t r1 (s.reg r1 ^^^ v8.setWidth 32) 32 false false 3) ∧
    (Runs (.xorRV16 r1 v16) (0x33#8 :: (0#4 ++ r1.index) :: bytes16 v16) s fun t =>
      RegisterResult s t r1 (s.reg r1 ^^^ v16.setWidth 32) 32 false false 4) ∧
    (Runs (.xorRV32 r1 v32) (0x34#8 :: (0#4 ++ r1.index) :: bytes32 v32) s fun t =>
      RegisterResult s t r1 (s.reg r1 ^^^ v32) 32 false false 6) ∧
    (Runs (.andRR r1 r2) [0x35#8, r1.index ++ r2.index] s fun t =>
      RegisterResult s t r1 (s.reg r1 &&& s.reg r2) 32 false false 2) ∧
    (Runs (.andRV8 r1 v8) [0x36#8, 0#4 ++ r1.index, v8] s fun t =>
      RegisterResult s t r1 (s.reg r1 &&& v8.setWidth 32) 32 false false 3) ∧
    (Runs (.andRV16 r1 v16) (0x37#8 :: (0#4 ++ r1.index) :: bytes16 v16) s fun t =>
      RegisterResult s t r1 (s.reg r1 &&& v16.setWidth 32) 32 false false 4) ∧
    (Runs (.andRV32 r1 v32) (0x38#8 :: (0#4 ++ r1.index) :: bytes32 v32) s fun t =>
      RegisterResult s t r1 (s.reg r1 &&& v32) 32 false false 6)

/-- Each of the five has its encoding and completes in every state: shl is the product by a power of two modulo 2^32,
shr the quotient, both 0 for a count of 32 or more; not is the ones' complement; flags of the 32-bit result, Y, V, GT
and LT cleared. The opcode numbers are those of the spec, whose decision D12 gives most of them. -/
def Obligations.ShiftAndNotResults : Prop :=
  ∀ (s : State) (r1 r2 : Reg) (v8 : BitVec 8),
    (Runs (.shlRR r1 r2) [0x39#8, r1.index ++ r2.index] s fun t =>
      RegisterResult s t r1 (if 32 ≤ (s.reg r2).toNat then 0 else BitVec.ofNat 32 ((s.reg r1).toNat * 2 ^ (s.reg r2).toNat)) 32 false false 2) ∧
    (Runs (.shlRV8 r1 v8) [0x3A#8, 0#4 ++ r1.index, v8] s fun t =>
      RegisterResult s t r1 (if 32 ≤ v8.toNat then 0 else BitVec.ofNat 32 ((s.reg r1).toNat * 2 ^ v8.toNat)) 32 false false 3) ∧
    (Runs (.shrRR r1 r2) [0x3D#8, r1.index ++ r2.index] s fun t =>
      RegisterResult s t r1 (if 32 ≤ (s.reg r2).toNat then 0 else BitVec.ofNat 32 ((s.reg r1).toNat / 2 ^ (s.reg r2).toNat)) 32 false false 2) ∧
    (Runs (.shrRV8 r1 v8) [0x3E#8, 0#4 ++ r1.index, v8] s fun t =>
      RegisterResult s t r1 (if 32 ≤ v8.toNat then 0 else BitVec.ofNat 32 ((s.reg r1).toNat / 2 ^ v8.toNat)) 32 false false 3) ∧
    (Runs (.notR r1) [0x41#8, 0#4 ++ r1.index] s fun t =>
      RegisterResult s t r1 (~~~(s.reg r1)) 32 false false 2)

/-- Each of the ten has its encoding and completes in every state, writing the sum or difference modulo 2^32; Z, P, S
from the result, Y the carry or borrow of the unsigned values, V the signed overflow, GT and LT cleared; PC as
destination changes no flag; FL ends equal to the result. The opcode numbers are those of the spec, whose decision D12
gives most of them. -/
def Obligations.AddSubIncDecResults : Prop :=
  ∀ (s : State) (r1 r2 : Reg) (v8 : BitVec 8) (v16 : BitVec 16) (v32 : Word),
    (Runs (.addRR r1 r2) [0x42#8, r1.index ++ r2.index] s fun t =>
      RegisterResult s t r1 (s.reg r1 + s.reg r2) 32 (decide (2 ^ 32 ≤ (s.reg r1).toNat + (s.reg r2).toNat)) (signedOverflow ((s.reg r1).toInt + (s.reg r2).toInt)) 2) ∧
    (Runs (.addRV8 r1 v8) [0x43#8, 0#4 ++ r1.index, v8] s fun t =>
      RegisterResult s t r1 (s.reg r1 + v8.setWidth 32) 32 (decide (2 ^ 32 ≤ (s.reg r1).toNat + (v8.setWidth 32).toNat)) (signedOverflow ((s.reg r1).toInt + (v8.setWidth 32).toInt)) 3) ∧
    (Runs (.addRV16 r1 v16) (0x44#8 :: (0#4 ++ r1.index) :: bytes16 v16) s fun t =>
      RegisterResult s t r1 (s.reg r1 + v16.setWidth 32) 32 (decide (2 ^ 32 ≤ (s.reg r1).toNat + (v16.setWidth 32).toNat)) (signedOverflow ((s.reg r1).toInt + (v16.setWidth 32).toInt)) 4) ∧
    (Runs (.addRV32 r1 v32) (0x45#8 :: (0#4 ++ r1.index) :: bytes32 v32) s fun t =>
      RegisterResult s t r1 (s.reg r1 + v32) 32 (decide (2 ^ 32 ≤ (s.reg r1).toNat + (v32).toNat)) (signedOverflow ((s.reg r1).toInt + (v32).toInt)) 6) ∧
    (Runs (.subRR r1 r2) [0x46#8, r1.index ++ r2.index] s fun t =>
      RegisterResult s t r1 (s.reg r1 - s.reg r2) 32 (decide ((s.reg r1).toNat < (s.reg r2).toNat)) (signedOverflow ((s.reg r1).toInt - (s.reg r2).toInt)) 2) ∧
    (Runs (.subRV8 r1 v8) [0x47#8, 0#4 ++ r1.index, v8] s fun t =>
      RegisterResult s t r1 (s.reg r1 - v8.setWidth 32) 32 (decide ((s.reg r1).toNat < (v8.setWidth 32).toNat)) (signedOverflow ((s.reg r1).toInt - (v8.setWidth 32).toInt)) 3) ∧
    (Runs (.subRV16 r1 v16) (0x48#8 :: (0#4 ++ r1.index) :: bytes16 v16) s fun t =>
      RegisterResult s t r1 (s.reg r1 - v16.setWidth 32) 32 (decide ((s.reg r1).toNat < (v16.setWidth 32).toNat)) (signedOverflow ((s.reg r1).toInt - (v16.setWidth 32).toInt)) 4) ∧
    (Runs (.subRV32 r1 v32) (0x49#8 :: (0#4 ++ r1.index) :: bytes32 v32) s fun t =>
      RegisterResult s t r1 (s.reg r1 - v32) 32 (decide ((s.reg r1).toNat < (v32).toNat)) (signedOverflow ((s.reg r1).toInt - (v32).toInt)) 6) ∧
    (Runs (.incR r1) [0x5A#8, 0#4 ++ r1.index] s fun t =>
      RegisterResult s t r1 (s.reg r1 + 1#32) 32 (decide (2 ^ 32 ≤ (s.reg r1).toNat + (1#32).toNat)) (signedOverflow ((s.reg r1).toInt + (1#32).toInt)) 2) ∧
    (Runs (.decR r1) [0x5B#8, 0#4 ++ r1.index] s fun t =>
      RegisterResult s t r1 (s.reg r1 - 1#32) 32 (decide ((s.reg r1).toNat < (1#32).toNat)) (signedOverflow ((s.reg r1).toInt - (1#32).toInt)) 2)

/-- Each of the five cmp forms has its encoding and completes in every state: Z, P, S of the difference, Y the borrow, V
the signed overflow, GT and LT the unsigned comparison, T and bits 31 to 8 kept; PC advanced; no other register, memory
or queue changes. The opcode numbers are those of the spec, whose decision D12 gives most of them. -/
def Obligations.CompareSetsOnlyFlags : Prop :=
  ∀ (s : State) (r1 r2 : Reg) (v8 : BitVec 8) (v16 : BitVec 16) (v32 : Word),
    (Runs (.cmpRR r1 r2) [0x4A#8, r1.index ++ r2.index] s fun t =>
      CompareResult s t (s.reg r1) (s.reg r2) (decide ((s.reg r1).toNat < (s.reg r2).toNat))
        (signedOverflow ((s.reg r1).toInt - (s.reg r2).toInt)) 2) ∧
    (Runs (.cmpRV8 r1 v8) [0x4B#8, 0#4 ++ r1.index, v8] s fun t =>
      CompareResult s t (s.reg r1) (v8.setWidth 32) (decide ((s.reg r1).toNat < (v8.setWidth 32).toNat))
        (signedOverflow ((s.reg r1).toInt - (v8.setWidth 32).toInt)) 3) ∧
    (Runs (.cmpRV16 r1 v16) (0x4C#8 :: (0#4 ++ r1.index) :: bytes16 v16) s fun t =>
      CompareResult s t (s.reg r1) (v16.setWidth 32) (decide ((s.reg r1).toNat < (v16.setWidth 32).toNat))
        (signedOverflow ((s.reg r1).toInt - (v16.setWidth 32).toInt)) 4) ∧
    (Runs (.cmpRV32 r1 v32) (0x4D#8 :: (0#4 ++ r1.index) :: bytes32 v32) s fun t =>
      CompareResult s t (s.reg r1) (v32) (decide ((s.reg r1).toNat < (v32).toNat))
        (signedOverflow ((s.reg r1).toInt - (v32).toInt)) 6) ∧
    (Runs (.cmpR r1) [0x8B#8, 0#4 ++ r1.index] s fun t =>
      CompareResult s t (s.reg r1) (0#32) (decide ((s.reg r1).toNat < (0#32).toNat))
        (signedOverflow ((s.reg r1).toInt - (0#32).toInt)) 2)

/-- Each of the twelve has its encoding; mul completes in every state with Y and V telling whether the unsigned and the
signed product fit; idiv and mod complete for every non-zero divisor with the unsigned quotient or remainder; with a
zero divisor they take DivideByZero of this instruction's address and change nothing. The opcode numbers are those of
the spec, whose decision D12 gives most of them. -/
def Obligations.MulDivModResults : Prop :=
  ∀ (s : State) (r1 r2 : Reg) (v8 : BitVec 8) (v16 : BitVec 16) (v32 : Word),
    (Runs (.mulRR r1 r2) [0x4E#8, r1.index ++ r2.index] s fun t =>
      RegisterResult s t r1 (BitVec.ofNat 32 ((s.reg r1).toNat * (s.reg r2).toNat)) 32 (decide (2 ^ 32 ≤ (s.reg r1).toNat * (s.reg r2).toNat)) 
        (signedOverflow ((s.reg r1).toInt * (s.reg r2).toInt)) 2) ∧
    (Runs (.mulRV8 r1 v8) [0x4F#8, 0#4 ++ r1.index, v8] s fun t =>
      RegisterResult s t r1 (BitVec.ofNat 32 ((s.reg r1).toNat * (v8.setWidth 32).toNat)) 32 (decide (2 ^ 32 ≤ (s.reg r1).toNat * (v8.setWidth 32).toNat)) 
        (signedOverflow ((s.reg r1).toInt * (v8.setWidth 32).toInt)) 3) ∧
    (Runs (.mulRV16 r1 v16) (0x50#8 :: (0#4 ++ r1.index) :: bytes16 v16) s fun t =>
      RegisterResult s t r1 (BitVec.ofNat 32 ((s.reg r1).toNat * (v16.setWidth 32).toNat)) 32 (decide (2 ^ 32 ≤ (s.reg r1).toNat * (v16.setWidth 32).toNat)) 
        (signedOverflow ((s.reg r1).toInt * (v16.setWidth 32).toInt)) 4) ∧
    (Runs (.mulRV32 r1 v32) (0x51#8 :: (0#4 ++ r1.index) :: bytes32 v32) s fun t =>
      RegisterResult s t r1 (BitVec.ofNat 32 ((s.reg r1).toNat * (v32).toNat)) 32 (decide (2 ^ 32 ≤ (s.reg r1).toNat * (v32).toNat)) 
        (signedOverflow ((s.reg r1).toInt * (v32).toInt)) 6) ∧
    (s.reg r2 ≠ 0 → Runs (.idivRR r1 r2) [0x52#8, r1.index ++ r2.index] s fun t =>
      RegisterResult s t r1 (BitVec.ofNat 32 ((s.reg r1).toNat / (s.reg r2).toNat)) 32 false false 2) ∧
    (s.reg r2 = 0 → exec (.idivRR r1 r2) s = .next (pollFault s (.divideByZero (s.reg .pc)))) ∧
    (v8 ≠ 0 → Runs (.idivRV8 r1 v8) [0x53#8, 0#4 ++ r1.index, v8] s fun t =>
      RegisterResult s t r1 (BitVec.ofNat 32 ((s.reg r1).toNat / (v8.setWidth 32).toNat)) 32 false false 3) ∧
    (v8 = 0 → exec (.idivRV8 r1 v8) s = .next (pollFault s (.divideByZero (s.reg .pc)))) ∧
    (v16 ≠ 0 → Runs (.idivRV16 r1 v16) (0x54#8 :: (0#4 ++ r1.index) :: bytes16 v16) s fun t =>
      RegisterResult s t r1 (BitVec.ofNat 32 ((s.reg r1).toNat / (v16.setWidth 32).toNat)) 32 false false 4) ∧
    (v16 = 0 → exec (.idivRV16 r1 v16) s = .next (pollFault s (.divideByZero (s.reg .pc)))) ∧
    (v32 ≠ 0 → Runs (.idivRV32 r1 v32) (0x55#8 :: (0#4 ++ r1.index) :: bytes32 v32) s fun t =>
      RegisterResult s t r1 (BitVec.ofNat 32 ((s.reg r1).toNat / (v32).toNat)) 32 false false 6) ∧
    (v32 = 0 → exec (.idivRV32 r1 v32) s = .next (pollFault s (.divideByZero (s.reg .pc)))) ∧
    (s.reg r2 ≠ 0 → Runs (.modRR r1 r2) [0x56#8, r1.index ++ r2.index] s fun t =>
      RegisterResult s t r1 (BitVec.ofNat 32 ((s.reg r1).toNat % (s.reg r2).toNat)) 32 false false 2) ∧
    (s.reg r2 = 0 → exec (.modRR r1 r2) s = .next (pollFault s (.divideByZero (s.reg .pc)))) ∧
    (v8 ≠ 0 → Runs (.modRV8 r1 v8) [0x57#8, 0#4 ++ r1.index, v8] s fun t =>
      RegisterResult s t r1 (BitVec.ofNat 32 ((s.reg r1).toNat % (v8.setWidth 32).toNat)) 32 false false 3) ∧
    (v8 = 0 → exec (.modRV8 r1 v8) s = .next (pollFault s (.divideByZero (s.reg .pc)))) ∧
    (v16 ≠ 0 → Runs (.modRV16 r1 v16) (0x58#8 :: (0#4 ++ r1.index) :: bytes16 v16) s fun t =>
      RegisterResult s t r1 (BitVec.ofNat 32 ((s.reg r1).toNat % (v16.setWidth 32).toNat)) 32 false false 4) ∧
    (v16 = 0 → exec (.modRV16 r1 v16) s = .next (pollFault s (.divideByZero (s.reg .pc)))) ∧
    (v32 ≠ 0 → Runs (.modRV32 r1 v32) (0x59#8 :: (0#4 ++ r1.index) :: bytes32 v32) s fun t =>
      RegisterResult s t r1 (BitVec.ofNat 32 ((s.reg r1).toNat % (v32).toNat)) 32 false false 6) ∧
    (v32 = 0 → exec (.modRV32 r1 v32) s = .next (pollFault s (.divideByZero (s.reg .pc))))

/-- Each of the ten has its encoding and completes in every state: PC is the operand's value if its condition on FL
holds and PC plus the length if not; no other register, no flag, no memory and no command changes. The opcode numbers
are those of the spec, whose decision D12 gives most of them. -/
def Obligations.BranchesToARegister : Prop :=
  ∀ (s : State) (r1 : Reg),
    (Runs (.bzR r1) [0x5C#8, 0#4 ++ r1.index] s fun t =>
      TransferResult s t (if (s.reg .fl).getLsbD 2 then s.reg r1 else s.reg .pc + 2) (s.reg .sp) []) ∧
    (Runs (.bnzR r1) [0x5E#8, 0#4 ++ r1.index] s fun t =>
      TransferResult s t (if (s.reg .fl).getLsbD 2 = false then s.reg r1 else s.reg .pc + 2) (s.reg .sp) []) ∧
    (Runs (.bnegR r1) [0x60#8, 0#4 ++ r1.index] s fun t =>
      TransferResult s t (if (s.reg .fl).getLsbD 3 then s.reg r1 else s.reg .pc + 2) (s.reg .sp) []) ∧
    (Runs (.bposR r1) [0x62#8, 0#4 ++ r1.index] s fun t =>
      TransferResult s t (if (s.reg .fl).getLsbD 3 = false then s.reg r1 else s.reg .pc + 2) (s.reg .sp) []) ∧
    (Runs (.bgtR r1) [0x64#8, 0#4 ++ r1.index] s fun t =>
      TransferResult s t (if (s.reg .fl).getLsbD 4 then s.reg r1 else s.reg .pc + 2) (s.reg .sp) []) ∧
    (Runs (.bgteR r1) [0x66#8, 0#4 ++ r1.index] s fun t =>
      TransferResult s t (if (s.reg .fl).getLsbD 4 || (s.reg .fl).getLsbD 2 then s.reg r1 else s.reg .pc + 2) (s.reg .sp) []) ∧
    (Runs (.bltR r1) [0x68#8, 0#4 ++ r1.index] s fun t =>
      TransferResult s t (if (s.reg .fl).getLsbD 5 then s.reg r1 else s.reg .pc + 2) (s.reg .sp) []) ∧
    (Runs (.blteR r1) [0x6A#8, 0#4 ++ r1.index] s fun t =>
      TransferResult s t (if (s.reg .fl).getLsbD 5 || (s.reg .fl).getLsbD 2 then s.reg r1 else s.reg .pc + 2) (s.reg .sp) []) ∧
    (Runs (.bvR r1) [0x6C#8, 0#4 ++ r1.index] s fun t =>
      TransferResult s t (if (s.reg .fl).getLsbD 1 then s.reg r1 else s.reg .pc + 2) (s.reg .sp) []) ∧
    (Runs (.bnvR r1) [0x6E#8, 0#4 ++ r1.index] s fun t =>
      TransferResult s t (if (s.reg .fl).getLsbD 1 = false then s.reg r1 else s.reg .pc + 2) (s.reg .sp) [])

/-- Each of the ten has its encoding and completes in every state: PC is the operand's value if its condition on FL
holds and PC plus the length if not; no other register, no flag, no memory and no command changes. The opcode numbers
are those of the spec, whose decision D12 gives most of them. -/
def Obligations.BranchesToAImmediate : Prop :=
  ∀ (s : State) (v32 : Word),
    (Runs (.bzV32 v32) (0x5D#8 :: bytes32 v32) s fun t =>
      TransferResult s t (if (s.reg .fl).getLsbD 2 then v32 else s.reg .pc + 5) (s.reg .sp) []) ∧
    (Runs (.bnzV32 v32) (0x5F#8 :: bytes32 v32) s fun t =>
      TransferResult s t (if (s.reg .fl).getLsbD 2 = false then v32 else s.reg .pc + 5) (s.reg .sp) []) ∧
    (Runs (.bnegV32 v32) (0x61#8 :: bytes32 v32) s fun t =>
      TransferResult s t (if (s.reg .fl).getLsbD 3 then v32 else s.reg .pc + 5) (s.reg .sp) []) ∧
    (Runs (.bposV32 v32) (0x63#8 :: bytes32 v32) s fun t =>
      TransferResult s t (if (s.reg .fl).getLsbD 3 = false then v32 else s.reg .pc + 5) (s.reg .sp) []) ∧
    (Runs (.bgtV32 v32) (0x65#8 :: bytes32 v32) s fun t =>
      TransferResult s t (if (s.reg .fl).getLsbD 4 then v32 else s.reg .pc + 5) (s.reg .sp) []) ∧
    (Runs (.bgteV32 v32) (0x67#8 :: bytes32 v32) s fun t =>
      TransferResult s t (if (s.reg .fl).getLsbD 4 || (s.reg .fl).getLsbD 2 then v32 else s.reg .pc + 5) (s.reg .sp) []) ∧
    (Runs (.bltV32 v32) (0x69#8 :: bytes32 v32) s fun t =>
      TransferResult s t (if (s.reg .fl).getLsbD 5 then v32 else s.reg .pc + 5) (s.reg .sp) []) ∧
    (Runs (.blteV32 v32) (0x6B#8 :: bytes32 v32) s fun t =>
      TransferResult s t (if (s.reg .fl).getLsbD 5 || (s.reg .fl).getLsbD 2 then v32 else s.reg .pc + 5) (s.reg .sp) []) ∧
    (Runs (.bvV32 v32) (0x6D#8 :: bytes32 v32) s fun t =>
      TransferResult s t (if (s.reg .fl).getLsbD 1 then v32 else s.reg .pc + 5) (s.reg .sp) []) ∧
    (Runs (.bnvV32 v32) (0x6F#8 :: bytes32 v32) s fun t =>
      TransferResult s t (if (s.reg .fl).getLsbD 1 = false then v32 else s.reg .pc + 5) (s.reg .sp) [])

/-- jmp and jsr have their encodings and complete in every state with PC the operand's old value; jsr moves SP down by 4
and queues the address of the next instruction there; ret, where the four bytes at SP are readable, sets PC to them and
SP up by 4, and otherwise takes OutOfRange at the lowest unreachable one and changes nothing. The opcode numbers are
those of the spec, whose decision D12 gives most of them. -/
def Obligations.JumpCallReturnResults : Prop :=
  ∀ (s : State) (r1 : Reg) (v32 : Word) (b0 b1 b2 b3 : Byte) (k : Nat),
    (Runs (.jmpR r1) [0x70#8, 0#4 ++ r1.index] s fun t =>
      TransferResult s t (s.reg r1) (s.reg .sp) []) ∧
    (Runs (.jmpV32 v32) (0x71#8 :: bytes32 v32) s fun t =>
      TransferResult s t (v32) (s.reg .sp) []) ∧
    (Runs (.jsrR r1) [0x72#8, 0#4 ++ r1.index] s fun t =>
      TransferResult s t (s.reg r1) (s.reg .sp - 4) [.writeDword32 (s.reg .sp - 4) (s.reg .pc + 2)] ∧
        (s.queue = [] → AppliesOne t (.writeDword32 (s.reg .sp - 4) (s.reg .pc + 2)))) ∧
    (Runs (.jsrV32 v32) (0x73#8 :: bytes32 v32) s fun t =>
      TransferResult s t (v32) (s.reg .sp - 4) [.writeDword32 (s.reg .sp - 4) (s.reg .pc + 5)] ∧
        (s.queue = [] → AppliesOne t (.writeDword32 (s.reg .sp - 4) (s.reg .pc + 5)))) ∧
    (Readable s (s.reg .sp).toNat [b0, b1, b2, b3] →
      Runs .ret [0x74#8] s fun t =>
      TransferResult s t (b3 ++ b2 ++ b1 ++ b0) (s.reg .sp + 4) []) ∧
    (FirstUnreadable s (s.reg .sp).toNat 4 k → exec .ret s = .next (pollFault s (.outOfRange ((s.reg .sp).toNat + k))))

/-- Each of the six has its encoding and completes in every state: SP moves down by 1, 2 or 4 modulo 2^32 and a command
of that size at the new SP with the operand's value before SP moved is queued; no flag and no other register but PC
changes; the apply phase writes it or stops at the first unreachable byte. The opcode numbers are those of the spec,
whose decision D12 gives most of them. -/
def Obligations.PushResults : Prop :=
  ∀ (s : State) (r1 : Reg) (v8 : BitVec 8) (v16 : BitVec 16) (v32 : Word),
    (Runs (.pushbR r1) [0x78#8, 0#4 ++ r1.index] s fun t =>
      RawResult s t [(.sp, s.reg .sp - 1)] 2 [.writeByte (s.reg .sp - 1) ((s.reg r1).setWidth 8)] ∧
        (s.queue = [] → AppliesOne t (.writeByte (s.reg .sp - 1) ((s.reg r1).setWidth 8)))) ∧
    (Runs (.pushbV8 v8) [0x79#8, v8] s fun t =>
      RawResult s t [(.sp, s.reg .sp - 1)] 2 [.writeByte (s.reg .sp - 1) (v8)] ∧
        (s.queue = [] → AppliesOne t (.writeByte (s.reg .sp - 1) (v8)))) ∧
    (Runs (.pushwR r1) [0x7A#8, 0#4 ++ r1.index] s fun t =>
      RawResult s t [(.sp, s.reg .sp - 2)] 2 [.writeWord16 (s.reg .sp - 2) ((s.reg r1).setWidth 16)] ∧
        (s.queue = [] → AppliesOne t (.writeWord16 (s.reg .sp - 2) ((s.reg r1).setWidth 16)))) ∧
    (Runs (.pushwV16 v16) (0x7B#8 :: bytes16 v16) s fun t =>
      RawResult s t [(.sp, s.reg .sp - 2)] 3 [.writeWord16 (s.reg .sp - 2) (v16)] ∧
        (s.queue = [] → AppliesOne t (.writeWord16 (s.reg .sp - 2) (v16)))) ∧
    (Runs (.pushdR r1) [0x7C#8, 0#4 ++ r1.index] s fun t =>
      RawResult s t [(.sp, s.reg .sp - 4)] 2 [.writeDword32 (s.reg .sp - 4) (s.reg r1)] ∧
        (s.queue = [] → AppliesOne t (.writeDword32 (s.reg .sp - 4) (s.reg r1)))) ∧
    (Runs (.pushdV32 v32) (0x7D#8 :: bytes32 v32) s fun t =>
      RawResult s t [(.sp, s.reg .sp - 4)] 5 [.writeDword32 (s.reg .sp - 4) (v32)] ∧
        (s.queue = [] → AppliesOne t (.writeDword32 (s.reg .sp - 4) (v32))))

/-- push.a has its encoding and completes in every state, SP down by 48 and twelve commands queued, A at the highest
address; pop.a, where its twelve dwords from ascending addresses modulo 2^32 are readable, writes L from the lowest to A
from the highest and SP up by 48, and where dword n at its byte k is the first unreachable one takes OutOfRange there
and changes nothing; no flag changes. The opcode numbers are those of the spec, whose decision D12 gives most of them.
-/
def Obligations.PushAllPopAllResults : Prop :=
  ∀ s : State,
    (Runs .pushA [0x7E#8] s fun t =>
      RawResult s t [(.sp, s.reg .sp - 48)] 1
        [.writeDword32 (s.reg .sp - 4) (s.reg .a), .writeDword32 (s.reg .sp - 8) (s.reg .b),
          .writeDword32 (s.reg .sp - 12) (s.reg .c), .writeDword32 (s.reg .sp - 16) (s.reg .d),
          .writeDword32 (s.reg .sp - 20) (s.reg .e), .writeDword32 (s.reg .sp - 24) (s.reg .f),
          .writeDword32 (s.reg .sp - 28) (s.reg .g), .writeDword32 (s.reg .sp - 32) (s.reg .h),
          .writeDword32 (s.reg .sp - 36) (s.reg .i), .writeDword32 (s.reg .sp - 40) (s.reg .j),
          .writeDword32 (s.reg .sp - 44) (s.reg .k), .writeDword32 (s.reg .sp - 48) (s.reg .l)] ∧ AppliesAll t) ∧
    encode .popA = [0x82#8] ∧
    (∀ v : Nat → Word, (∀ n, n < 12 → memRead s (s.reg .sp + BitVec.ofNat 32 (4 * n)).toNat 4 = .ok (v n)) →
      ∃ t, exec .popA s = .next t ∧ t.status = s.status ∧ BusKept s t [] ∧
        [t.reg .l, t.reg .k, t.reg .j, t.reg .i, t.reg .h, t.reg .g, t.reg .f, t.reg .e, t.reg .d, t.reg .c, t.reg .b,
          t.reg .a] = (List.range 12).map v ∧
        t.reg .sp = s.reg .sp + 48 ∧ t.reg .pc = s.reg .pc + 1 ∧ t.reg .fp = s.reg .fp ∧ t.reg .fl = s.reg .fl) ∧
    (∀ n k, n < 12 →
      (∀ m, m < n → ∃ v, memRead s (s.reg .sp + BitVec.ofNat 32 (4 * m)).toNat 4 = .ok v) →
      FirstUnreadable s (s.reg .sp + BitVec.ofNat 32 (4 * n)).toNat 4 k →
      exec .popA s = .next (pollFault s (.outOfRange ((s.reg .sp + BitVec.ofNat 32 (4 * n)).toNat + k))))

/-- Each pop has its encoding; where the 1, 2 or 4 bytes at SP are readable it completes, SP up by the size and then the
register written with them zero-extended, no flag changed unless FL is named; otherwise it takes OutOfRange at the
lowest unreachable byte and changes nothing; popx completes in every state, SP up by its operand modulo 2^32, reading no
memory. The opcode numbers are those of the spec, whose decision D12 gives most of them. -/
def Obligations.PopResults : Prop :=
  ∀ (s : State) (r1 : Reg) (v8 : BitVec 8) (v16 : BitVec 16) (b0 b1 b2 b3 : Byte) (k : Nat),
    (Readable s (s.reg .sp).toNat [b0] →
      Runs (.popbR r1) [0x7F#8, 0#4 ++ r1.index] s fun t =>
        RawResult s t [(.sp, s.reg .sp + 1), (r1, b0.setWidth 32)] 2 []) ∧
    (FirstUnreadable s (s.reg .sp).toNat 1 k →
      exec (.popbR r1) s = .next (pollFault s (.outOfRange ((s.reg .sp).toNat + k)))) ∧
    (Readable s (s.reg .sp).toNat [b0, b1] →
      Runs (.popwR r1) [0x80#8, 0#4 ++ r1.index] s fun t =>
        RawResult s t [(.sp, s.reg .sp + 2), (r1, (b1 ++ b0).setWidth 32)] 2 []) ∧
    (FirstUnreadable s (s.reg .sp).toNat 2 k →
      exec (.popwR r1) s = .next (pollFault s (.outOfRange ((s.reg .sp).toNat + k)))) ∧
    (Readable s (s.reg .sp).toNat [b0, b1, b2, b3] →
      Runs (.popdR r1) [0x81#8, 0#4 ++ r1.index] s fun t =>
        RawResult s t [(.sp, s.reg .sp + 4), (r1, b3 ++ b2 ++ b1 ++ b0)] 2 []) ∧
    (FirstUnreadable s (s.reg .sp).toNat 4 k →
      exec (.popdR r1) s = .next (pollFault s (.outOfRange ((s.reg .sp).toNat + k)))) ∧
    (Runs (.popxR r1) [0x83#8, 0#4 ++ r1.index] s fun t =>
      RawResult s t [(.sp, s.reg .sp + s.reg r1)] 2 []) ∧
    (Runs (.popxV8 v8) [0x84#8, v8] s fun t =>
      RawResult s t [(.sp, s.reg .sp + v8.setWidth 32)] 2 []) ∧
    (Runs (.popxV16 v16) (0x85#8 :: bytes16 v16) s fun t =>
      RawResult s t [(.sp, s.reg .sp + v16.setWidth 32)] 3 [])

/-- Each has its encoding. With no extension installed sys, iret and sret take ExtensionNotImplemented of their opcode
and change nothing; nop and dbg change only PC; halt sets the status HALT and advances PC; nothing else changes. The
opcode numbers are those of the spec, whose decision D12 gives most of them. -/
def Obligations.SystemInstructionResults : Prop :=
  ∀ (s : State) (r1 : Reg) (v8 : BitVec 8),
    (s.ext = none →
      (Runs (.sysR r1) [0x75#8, 0#4 ++ r1.index] s fun t =>
        t = pollFault s (.extensionNotImplemented 0x75#8)) ∧
      (Runs (.sysV8 v8) [0x76#8, v8] s fun t =>
        t = pollFault s (.extensionNotImplemented 0x76#8)) ∧
      (Runs .iret [0x77#8] s fun t =>
        t = pollFault s (.extensionNotImplemented 0x77#8)) ∧
      (Runs .sret [0x86#8] s fun t =>
        t = pollFault s (.extensionNotImplemented 0x86#8))) ∧
    (Runs .nop [0x87#8] s fun t =>
      RawResult s t [] 1 []) ∧
    (Runs .dbg [0x89#8] s fun t =>
      RawResult s t [] 1 []) ∧
    (Runs .halt [0x88#8] s fun t =>
      t.status = .halt ∧ BusKept s t [] ∧
        ∀ r, t.reg r = if r = .pc then s.reg .pc + 1 else s.reg r)

/-- With an extension installed the outcome of sys, iret and sret is its function of the registers, the read-only bus
view and the decoded instruction: the sixteen registers it gives, PC advanced by the length unless it transferred
control, its commands appended, the bus as before; or its fault with nothing changed: the OutOfRange of the first of its
reads that fails, at a byte that cannot be read, and otherwise one of another kind, neither InvalidMapping nor
InvalidDestination. That PC is advanced from the value the extension gave is the model's reading of R152 (log entry 5).
-/
def Obligations.SuppliedExtensionDecidesTheOutcome : Prop :=
  ∀ (s : State) (id len : Nat) (i : Instr) (r1 : Reg) (v8 : BitVec 8), s.ext = some id →
    (i = .sysR r1 ∨ i = .sysV8 v8) ∧ len = 2 ∨ (i = .iret ∨ i = .sret) ∧ len = 1 →
    (∀ f, firstFault s (Config.extReads id s.regs (busView s) i) = some f →
      exec i s = .next (pollFault s f) ∧ ∃ a, f = .outOfRange a ∧ ∀ b, byteAt s a ≠ .ok b) ∧
    (∀ f, firstFault s (Config.extReads id s.regs (busView s) i) = none →
      Config.extSem id s.regs (busView s) i = .error f → exec i s = .next (pollFault s f.toFault)) ∧
    ∀ x, firstFault s (Config.extReads id s.regs (busView s) i) = none →
      Config.extSem id s.regs (busView s) i = .ok x →
      ∃ t, exec i s = .next t ∧ t.status = s.status ∧ BusKept s t x.commands ∧
        ∀ r, t.reg r = if r = .pc ∧ x.transferred = false then x.regs.get .pc + BitVec.ofNat 32 len else x.regs.get r
end

