-- ==== Sys2Proof/Laws/State.lean ====
section
/-! SUPPORT. One lemma for each field of State after each update of it, all by rfl, so that no proof unfolds an update; and
what a register holds after each update. -/

namespace Sys2Proof.Machine

variable (s : State)

/-! ### `setReg` -/

@[simp] theorem setReg_regs (r : Reg) (v : Word) : (s.setReg r v).regs = s.regs.set r v := rfl
@[simp] theorem setReg_ram (r : Reg) (v : Word) : (s.setReg r v).ram = s.ram := rfl
@[simp] theorem setReg_memSize (r : Reg) (v : Word) : (s.setReg r v).memSize = s.memSize := rfl
@[simp] theorem setReg_offset (r : Reg) (v : Word) : (s.setReg r v).offset = s.offset := rfl
@[simp] theorem setReg_devices (r : Reg) (v : Word) : (s.setReg r v).devices = s.devices := rfl
@[simp] theorem setReg_queue (r : Reg) (v : Word) : (s.setReg r v).queue = s.queue := rfl
@[simp] theorem setReg_status (r : Reg) (v : Word) : (s.setReg r v).status = s.status := rfl
@[simp] theorem setReg_ext (r : Reg) (v : Word) : (s.setReg r v).ext = s.ext := rfl
@[simp] theorem setReg_draws (r : Reg) (v : Word) : (s.setReg r v).draws = s.draws := rfl

/-! ### `setRegFile` -/

@[simp] theorem setRegFile_regs (f : RegFile) : (s.setRegFile f).regs = f := rfl
@[simp] theorem setRegFile_ram (f : RegFile) : (s.setRegFile f).ram = s.ram := rfl
@[simp] theorem setRegFile_memSize (f : RegFile) : (s.setRegFile f).memSize = s.memSize := rfl
@[simp] theorem setRegFile_offset (f : RegFile) : (s.setRegFile f).offset = s.offset := rfl
@[simp] theorem setRegFile_devices (f : RegFile) : (s.setRegFile f).devices = s.devices := rfl
@[simp] theorem setRegFile_queue (f : RegFile) : (s.setRegFile f).queue = s.queue := rfl
@[simp] theorem setRegFile_status (f : RegFile) : (s.setRegFile f).status = s.status := rfl
@[simp] theorem setRegFile_ext (f : RegFile) : (s.setRegFile f).ext = s.ext := rfl
@[simp] theorem setRegFile_draws (f : RegFile) : (s.setRegFile f).draws = s.draws := rfl

/-! ### `advance` -/

@[simp] theorem advance_regs (n : Nat) : (s.advance n).regs = s.regs.set .pc (s.reg .pc + BitVec.ofNat 32 n) := rfl
@[simp] theorem advance_ram (n : Nat) : (s.advance n).ram = s.ram := rfl
@[simp] theorem advance_memSize (n : Nat) : (s.advance n).memSize = s.memSize := rfl
@[simp] theorem advance_offset (n : Nat) : (s.advance n).offset = s.offset := rfl
@[simp] theorem advance_devices (n : Nat) : (s.advance n).devices = s.devices := rfl
@[simp] theorem advance_queue (n : Nat) : (s.advance n).queue = s.queue := rfl
@[simp] theorem advance_status (n : Nat) : (s.advance n).status = s.status := rfl
@[simp] theorem advance_ext (n : Nat) : (s.advance n).ext = s.ext := rfl
@[simp] theorem advance_draws (n : Nat) : (s.advance n).draws = s.draws := rfl

/-! ### `setStatus` -/

@[simp] theorem setStatus_regs (st : Status) : (s.setStatus st).regs = s.regs := rfl
@[simp] theorem setStatus_ram (st : Status) : (s.setStatus st).ram = s.ram := rfl
@[simp] theorem setStatus_memSize (st : Status) : (s.setStatus st).memSize = s.memSize := rfl
@[simp] theorem setStatus_offset (st : Status) : (s.setStatus st).offset = s.offset := rfl
@[simp] theorem setStatus_devices (st : Status) : (s.setStatus st).devices = s.devices := rfl
@[simp] theorem setStatus_queue (st : Status) : (s.setStatus st).queue = s.queue := rfl
@[simp] theorem setStatus_status (st : Status) : (s.setStatus st).status = st := rfl
@[simp] theorem setStatus_ext (st : Status) : (s.setStatus st).ext = s.ext := rfl
@[simp] theorem setStatus_draws (st : Status) : (s.setStatus st).draws = s.draws := rfl

/-! ### `takeFault` -/

@[simp] theorem takeFault_regs (f : Fault) (p : Phase) : (s.takeFault f p).regs = s.regs := rfl
@[simp] theorem takeFault_ram (f : Fault) (p : Phase) : (s.takeFault f p).ram = s.ram := rfl
@[simp] theorem takeFault_memSize (f : Fault) (p : Phase) : (s.takeFault f p).memSize = s.memSize := rfl
@[simp] theorem takeFault_offset (f : Fault) (p : Phase) : (s.takeFault f p).offset = s.offset := rfl
@[simp] theorem takeFault_devices (f : Fault) (p : Phase) : (s.takeFault f p).devices = s.devices := rfl
@[simp] theorem takeFault_queue (f : Fault) (p : Phase) : (s.takeFault f p).queue = [] := rfl
@[simp] theorem takeFault_status (f : Fault) (p : Phase) : (s.takeFault f p).status = .fault f p := rfl
@[simp] theorem takeFault_ext (f : Fault) (p : Phase) : (s.takeFault f p).ext = s.ext := rfl
@[simp] theorem takeFault_draws (f : Fault) (p : Phase) : (s.takeFault f p).draws = s.draws := rfl

/-! ### `enqueue` -/

@[simp] theorem enqueue_regs (cs : List Command) : (s.enqueue cs).regs = s.regs := rfl
@[simp] theorem enqueue_ram (cs : List Command) : (s.enqueue cs).ram = s.ram := rfl
@[simp] theorem enqueue_memSize (cs : List Command) : (s.enqueue cs).memSize = s.memSize := rfl
@[simp] theorem enqueue_offset (cs : List Command) : (s.enqueue cs).offset = s.offset := rfl
@[simp] theorem enqueue_devices (cs : List Command) : (s.enqueue cs).devices = s.devices := rfl
@[simp] theorem enqueue_queue (cs : List Command) : (s.enqueue cs).queue = s.queue ++ cs := rfl
@[simp] theorem enqueue_status (cs : List Command) : (s.enqueue cs).status = s.status := rfl
@[simp] theorem enqueue_ext (cs : List Command) : (s.enqueue cs).ext = s.ext := rfl
@[simp] theorem enqueue_draws (cs : List Command) : (s.enqueue cs).draws = s.draws := rfl

/-! ### `memWrite` -/

@[simp] theorem memWrite_regs (a : Word) (w : Width) (v : Word) : (s.memWrite a w v).regs = s.regs := rfl
@[simp] theorem memWrite_ram (a : Word) (w : Width) (v : Word) : (s.memWrite a w v).ram = s.ram := rfl
@[simp] theorem memWrite_memSize (a : Word) (w : Width) (v : Word) : (s.memWrite a w v).memSize = s.memSize := rfl
@[simp] theorem memWrite_offset (a : Word) (w : Width) (v : Word) : (s.memWrite a w v).offset = s.offset := rfl
@[simp] theorem memWrite_devices (a : Word) (w : Width) (v : Word) : (s.memWrite a w v).devices = s.devices := rfl
@[simp] theorem memWrite_queue (a : Word) (w : Width) (v : Word) : (s.memWrite a w v).queue = s.queue ++ [Command.store a w v] := rfl
@[simp] theorem memWrite_status (a : Word) (w : Width) (v : Word) : (s.memWrite a w v).status = s.status := rfl
@[simp] theorem memWrite_ext (a : Word) (w : Width) (v : Word) : (s.memWrite a w v).ext = s.ext := rfl
@[simp] theorem memWrite_draws (a : Word) (w : Width) (v : Word) : (s.memWrite a w v).draws = s.draws := rfl

/-! ### `pushValue` -/

@[simp] theorem pushValue_regs (w : Width) (v : Word) : (s.pushValue w v).regs = s.regs.set .sp (s.reg .sp - BitVec.ofNat 32 w.bytes) := rfl
@[simp] theorem pushValue_ram (w : Width) (v : Word) : (s.pushValue w v).ram = s.ram := rfl
@[simp] theorem pushValue_memSize (w : Width) (v : Word) : (s.pushValue w v).memSize = s.memSize := rfl
@[simp] theorem pushValue_offset (w : Width) (v : Word) : (s.pushValue w v).offset = s.offset := rfl
@[simp] theorem pushValue_devices (w : Width) (v : Word) : (s.pushValue w v).devices = s.devices := rfl
@[simp] theorem pushValue_queue (w : Width) (v : Word) : (s.pushValue w v).queue = s.queue ++ [Command.store (s.reg .sp - BitVec.ofNat 32 w.bytes) w v] := rfl
@[simp] theorem pushValue_status (w : Width) (v : Word) : (s.pushValue w v).status = s.status := rfl
@[simp] theorem pushValue_ext (w : Width) (v : Word) : (s.pushValue w v).ext = s.ext := rfl
@[simp] theorem pushValue_draws (w : Width) (v : Word) : (s.pushValue w v).draws = s.draws := rfl

/-! ### `beginStep` -/

@[simp] theorem beginStep_regs : s.beginStep.regs = s.regs := rfl
@[simp] theorem beginStep_ram : s.beginStep.ram = s.ram := rfl
@[simp] theorem beginStep_memSize : s.beginStep.memSize = s.memSize := rfl
@[simp] theorem beginStep_offset : s.beginStep.offset = s.offset := rfl
@[simp] theorem beginStep_devices : s.beginStep.devices = s.devices := rfl
@[simp] theorem beginStep_queue : s.beginStep.queue = [] := rfl
@[simp] theorem beginStep_status : s.beginStep.status = s.status := rfl
@[simp] theorem beginStep_ext : s.beginStep.ext = s.ext := rfl
@[simp] theorem beginStep_draws : s.beginStep.draws = s.draws + 1 := rfl

/-! ### `setDevices` -/

@[simp] theorem setDevices_regs (ds : List DeviceEntry) : (s.setDevices ds).regs = s.regs := rfl
@[simp] theorem setDevices_ram (ds : List DeviceEntry) : (s.setDevices ds).ram = s.ram := rfl
@[simp] theorem setDevices_memSize (ds : List DeviceEntry) : (s.setDevices ds).memSize = s.memSize := rfl
@[simp] theorem setDevices_offset (ds : List DeviceEntry) : (s.setDevices ds).offset = s.offset := rfl
@[simp] theorem setDevices_devices (ds : List DeviceEntry) : (s.setDevices ds).devices = ds := rfl
@[simp] theorem setDevices_queue (ds : List DeviceEntry) : (s.setDevices ds).queue = s.queue := rfl
@[simp] theorem setDevices_status (ds : List DeviceEntry) : (s.setDevices ds).status = s.status := rfl
@[simp] theorem setDevices_ext (ds : List DeviceEntry) : (s.setDevices ds).ext = s.ext := rfl
@[simp] theorem setDevices_draws (ds : List DeviceEntry) : (s.setDevices ds).draws = s.draws := rfl

/-! ### `setQueue` -/

@[simp] theorem setQueue_regs (q : List Command) : (s.setQueue q).regs = s.regs := rfl
@[simp] theorem setQueue_ram (q : List Command) : (s.setQueue q).ram = s.ram := rfl
@[simp] theorem setQueue_memSize (q : List Command) : (s.setQueue q).memSize = s.memSize := rfl
@[simp] theorem setQueue_offset (q : List Command) : (s.setQueue q).offset = s.offset := rfl
@[simp] theorem setQueue_devices (q : List Command) : (s.setQueue q).devices = s.devices := rfl
@[simp] theorem setQueue_queue (q : List Command) : (s.setQueue q).queue = q := rfl
@[simp] theorem setQueue_status (q : List Command) : (s.setQueue q).status = s.status := rfl
@[simp] theorem setQueue_ext (q : List Command) : (s.setQueue q).ext = s.ext := rfl
@[simp] theorem setQueue_draws (q : List Command) : (s.setQueue q).draws = s.draws := rfl

/-! ### `pollFault` -/

@[simp] theorem pollFault_regs (f : Fault) : (pollFault s f).regs = s.regs := rfl
@[simp] theorem pollFault_ram (f : Fault) : (pollFault s f).ram = s.ram := rfl
@[simp] theorem pollFault_memSize (f : Fault) : (pollFault s f).memSize = s.memSize := rfl
@[simp] theorem pollFault_offset (f : Fault) : (pollFault s f).offset = s.offset := rfl
@[simp] theorem pollFault_devices (f : Fault) : (pollFault s f).devices = s.devices := rfl
@[simp] theorem pollFault_queue (f : Fault) : (pollFault s f).queue = [] := rfl
@[simp] theorem pollFault_status (f : Fault) : (pollFault s f).status = .fault f .poll := rfl
@[simp] theorem pollFault_ext (f : Fault) : (pollFault s f).ext = s.ext := rfl
@[simp] theorem pollFault_draws (f : Fault) : (pollFault s f).draws = s.draws := rfl

/-! ### Registers -/

/-- Reading the register file after a write (R22). -/
theorem RegFile.get_set (f : RegFile) (r r' : Reg) (v : Word) : (f.set r v).get r' = if r' = r then v else f.get r' := by
  cases r <;> cases r' <;> rfl

/-- Two register files with the same sixteen registers are equal (R20). -/
theorem RegFile.ext_get {f g : RegFile} (h : ∀ r, f.get r = g.get r) : f = g := by
  cases f; cases g
  have := h .a; have := h .b; have := h .c; have := h .d; have := h .e; have := h .f; have := h .g; have := h .h
  have := h .i; have := h .j; have := h .k; have := h .l; have := h .fp; have := h .sp; have := h .pc; have := h .fl
  simp_all [RegFile.get]

theorem reg_setReg (r r' : Reg) (v : Word) : (s.setReg r v).reg r' = if r' = r then v else s.reg r' :=
  RegFile.get_set s.regs r r' v

@[simp] theorem reg_setReg_same (r : Reg) (v : Word) : (s.setReg r v).reg r = v := by simp [reg_setReg]

theorem reg_setReg_ne {r r' : Reg} (h : r' ≠ r) (v : Word) : (s.setReg r v).reg r' = s.reg r' := by simp [reg_setReg, h]

theorem reg_advance (n : Nat) (r : Reg) :
    (s.advance n).reg r = if r = .pc then s.reg .pc + BitVec.ofNat 32 n else s.reg r :=
  reg_setReg s .pc r _

@[simp] theorem reg_setRegFile (f : RegFile) (r : Reg) : (s.setRegFile f).reg r = f.get r := rfl
@[simp] theorem reg_setStatus (st : Status) (r : Reg) : (s.setStatus st).reg r = s.reg r := rfl
@[simp] theorem reg_takeFault (f : Fault) (p : Phase) (r : Reg) : (s.takeFault f p).reg r = s.reg r := rfl
@[simp] theorem reg_enqueue (cs : List Command) (r : Reg) : (s.enqueue cs).reg r = s.reg r := rfl
@[simp] theorem reg_memWrite (a : Word) (w : Width) (v : Word) (r : Reg) : (s.memWrite a w v).reg r = s.reg r := rfl
@[simp] theorem reg_beginStep (r : Reg) : s.beginStep.reg r = s.reg r := rfl
@[simp] theorem reg_setDevices (ds : List DeviceEntry) (r : Reg) : (s.setDevices ds).reg r = s.reg r := rfl
@[simp] theorem reg_setQueue (q : List Command) (r : Reg) : (s.setQueue q).reg r = s.reg r := rfl
@[simp] theorem reg_pollFault (f : Fault) (r : Reg) : (pollFault s f).reg r = s.reg r := rfl

theorem reg_pushValue (w : Width) (v : Word) (r : Reg) :
    (s.pushValue w v).reg r = if r = .sp then s.reg .sp - BitVec.ofNat 32 w.bytes else s.reg r :=
  reg_setReg s .sp r _

/-- Taking a fault in the poll phase, in the words claims use. -/
theorem takeFault_poll (f : Fault) : s.takeFault f .poll = pollFault s f := rfl

end Sys2Proof.Machine
end

