-- ==== Sys2Proof/Laws/Flags.lean ====
section
/-! SUPPORT. What each flag computation leaves in each bit of the flags word. -/

namespace Sys2Proof.Machine

theorem Flag.bit_lt (f : Flag) : f.bit < 8 := by cases f <;> decide

/-- One bit of a flags word after one flag is replaced (R29). -/
theorem getLsbD_setFlag (fl : Word) (f : Flag) (b : Bool) (i : Nat) :
    (setFlag fl f b).getLsbD i = if i = f.bit then b else fl.getLsbD i := by
  have hf := f.bit_lt
  have one : ∀ k, (1#32).getLsbD k = decide (k = 0) := by
    intro k
    rw [BitVec.getLsbD_one]
    simp
  have key : ((1#32 : Word) <<< f.bit).getLsbD i = decide (i = f.bit) := by
    rw [BitVec.getLsbD_shiftLeft, one]
    by_cases h : i = f.bit
    · subst h
      simp
      omega
    · by_cases h2 : i < f.bit
      · simp [h, h2]
      · have : ¬ (i - f.bit = 0) := by omega
        simp [h, this]
  unfold setFlag
  cases b with
  | true =>
    rw [if_pos rfl, BitVec.getLsbD_or, key]
    by_cases h : i = f.bit <;> simp [h]
  | false =>
    rw [if_neg (by decide), BitVec.getLsbD_and, BitVec.getLsbD_not, key]
    by_cases h : i = f.bit
    · simp [h]
    · by_cases hi : i < 32
      · simp [h, hi]
      · have : fl.getLsbD i = false := BitVec.getLsbD_of_ge fl i (by omega)
        simp [h, this]

/-- A field of the flags word from bit `lo` up is kept by a change of a lower flag. -/
theorem extractLsb'_setFlag (fl : Word) (f : Flag) (b : Bool) (lo n : Nat) (h : f.bit < lo) :
    (setFlag fl f b).extractLsb' lo n = fl.extractLsb' lo n := by
  apply BitVec.eq_of_getLsbD_eq
  intro i hi
  rw [BitVec.getLsbD_extractLsb', BitVec.getLsbD_extractLsb', getLsbD_setFlag, if_neg (by omega)]

/-- The flags `WriteFlags` leaves (R146). -/
theorem writeFlags_flagsAre (fl v : Word) (w : Width) :
    FlagsAre fl (writeFlags fl v w) (w.trunc v) w.bits false false false false := by
  constructor <;> unfold writeFlags <;> try simp only [getLsbD_setFlag]
  all_goals try rfl
  repeat rw [extractLsb'_setFlag _ _ _ 7 25 (by decide)]

/-- The flags `WriteOpYV` leaves (R149). -/
theorem writeFlagsYV_flagsAre (fl v : Word) (w : Width) (y ov : Bool) :
    FlagsAre fl (writeFlagsYV fl v w y ov) (w.trunc v) w.bits y ov false false := by
  have h := writeFlags_flagsAre fl v w
  constructor <;> unfold writeFlagsYV <;> try simp only [getLsbD_setFlag, h.zero, h.even, h.sign, h.greater, h.less]
  all_goals try rfl
  repeat rw [extractLsb'_setFlag _ _ _ 7 25 (by decide)]
  exact h.rest

@[simp] theorem trunc_w32 (v : Word) : Width.w32.trunc v = v := by simp [Width.trunc, Width.bits]

theorem trunc_trunc (w : Width) (v : Word) : w.trunc (w.trunc v) = w.trunc v := by
  cases w <;> simp [Width.trunc, Width.bits]

/-- The flags `cmp` leaves (R228). -/
theorem compareFlags_flagsAre (fl a b : Word) :
    FlagsAre fl (compareFlags fl a b) (a - b) 32 (subWord a b).carry (subWord a b).overflow
      (decide (b.toNat < a.toNat)) (decide (a.toNat < b.toNat)) := by
  have h := writeFlagsYV_flagsAre fl (a - b) .w32 (subWord a b).carry (subWord a b).overflow
  rw [trunc_w32] at h
  constructor <;> unfold compareFlags <;>
    try simp only [getLsbD_setFlag, h.zero, h.even, h.sign, h.carry, h.overflow]
  all_goals try rfl
  repeat rw [extractLsb'_setFlag _ _ _ 7 25 (by decide)]
  exact h.rest

end Sys2Proof.Machine
end

