-- ==== Sys2Proof/Laws/Memory.lean ====
section
/-! SUPPORT. The laws of physical memory in its canonical form: reading after writing, and that a write keeps the form. -/

namespace Sys2Proof.Machine

/-! ### Reading -/

/-- An index below every listed index holds the unwritten byte. -/
theorem Memory.read_of_wfFrom {lo i : Nat} {m : Memory} (h : Memory.wfFrom lo m = true) (hi : i < lo) :
    m.read i = Config.unwrittenByte := by
  cases m with
  | nil => rfl
  | cons c m =>
    obtain ⟨j, b⟩ := c
    simp only [Memory.wfFrom, Bool.and_eq_true, decide_eq_true_eq] at h
    have h1 : i ≠ j := by omega
    have h2 : i < j := by omega
    simp [Memory.read, h1, h2]

theorem Memory.wfFrom_mono {lo lo' : Nat} {m : Memory} (h : Memory.wfFrom lo m = true) (hl : lo' ≤ lo) :
    Memory.wfFrom lo' m = true := by
  cases m with
  | nil => rfl
  | cons c m =>
    obtain ⟨j, b⟩ := c
    simp only [Memory.wfFrom, Bool.and_eq_true, decide_eq_true_eq] at h ⊢
    exact ⟨⟨by omega, h.1.2⟩, h.2⟩

/-- Reading after a write in canonical form. -/
theorem Memory.read_write {lo : Nat} {m : Memory} (h : Memory.wfFrom lo m = true) (i k : Nat) (b : Byte) :
    (m.write i b).read k = if k = i then b else m.read k := by
  induction m generalizing lo with
  | nil =>
    by_cases hb : b = Config.unwrittenByte <;> by_cases hk : k = i <;> simp [Memory.write, Memory.read, hb, hk]
  | cons c m ih =>
    obtain ⟨j, c⟩ := c
    have hw := h
    simp only [Memory.wfFrom, Bool.and_eq_true, decide_eq_true_eq] at h
    have ih := ih h.2
    have hlow : ∀ n, n < j + 1 → Memory.read m n = Config.unwrittenByte := fun n hn => Memory.read_of_wfFrom h.2 hn
    unfold Memory.write
    split
    · rename_i hij
      split
      · rename_i hb
        by_cases hk : k = i
        · have : k ≠ j := by omega
          have : k < j := by omega
          simp_all [Memory.read]
        · simp [hk]
      · by_cases hk : k = i
        · simp [Memory.read, hk]
        · by_cases hlt : k < i
          · have : k ≠ j := by omega
            have : k < j := by omega
            simp_all [Memory.read]
          · rw [Memory.read]; simp [hk, hlt]
    · rename_i hij
      split
      · rename_i hi
        subst hi
        split
        · rename_i hb
          by_cases hk : k = i
          · simp [hk, hlow, hb]
          · by_cases hlt : k < i
            · simp [hk, Memory.read, hlt, hlow k (by omega)]
            · simp [hk, Memory.read, hlt]
        · by_cases hk : k = i <;> simp [Memory.read, hk]
      · rename_i hne
        by_cases hk : k = i
        · subst hk
          simp [Memory.read, hij, hne, ih]
        · simp [Memory.read, ih, hk]

/-! ### The canonical form -/

/-- A write at or above the lower bound keeps the canonical form. -/
theorem Memory.wfFrom_write {lo : Nat} {m : Memory} (h : Memory.wfFrom lo m = true) {i : Nat} (hi : lo ≤ i) (b : Byte) :
    Memory.wfFrom lo (m.write i b) = true := by
  induction m generalizing lo with
  | nil => by_cases hb : b = Config.unwrittenByte <;> simp [Memory.write, Memory.wfFrom, hb, hi]
  | cons c m ih =>
    obtain ⟨j, c⟩ := c
    have hw := h
    simp only [Memory.wfFrom, Bool.and_eq_true, decide_eq_true_eq] at h
    unfold Memory.write
    split
    · split
      · exact hw
      · rename_i hij hb
        simp only [Memory.wfFrom, Bool.and_eq_true, decide_eq_true_eq]
        exact ⟨⟨hi, by simpa using hb⟩, ⟨⟨by omega, h.1.2⟩, h.2⟩⟩
    · split
      · split
        · exact Memory.wfFrom_mono h.2 (by omega)
        · rename_i hb
          simp only [Memory.wfFrom, Bool.and_eq_true, decide_eq_true_eq]
          exact ⟨⟨hi, by simpa using hb⟩, Memory.wfFrom_mono h.2 (by omega)⟩
      · simp only [Memory.wfFrom, Bool.and_eq_true, decide_eq_true_eq]
        exact ⟨h.1, ih h.2 (by omega)⟩

/-- A write keeps the canonical form. -/
theorem Memory.wf_write {m : Memory} (h : m.wf = true) (i : Nat) (b : Byte) : (m.write i b).wf = true :=
  Memory.wfFrom_write h (Nat.zero_le i) b

/-- A write below the size keeps every listed index below it. -/
theorem Memory.below_write {m : Memory} {n i : Nat} (h : m.below n = true) (hi : i < n) (b : Byte) :
    (m.write i b).below n = true := by
  unfold Memory.below at *
  induction m with
  | nil => by_cases hb : b = Config.unwrittenByte <;> simp [Memory.write, hb, hi]
  | cons c m ih =>
    obtain ⟨j, c⟩ := c
    rw [List.all_cons, Bool.and_eq_true] at h
    have ih := ih h.2
    have hj := h.1
    have hm := h.2
    unfold Memory.write
    split <;> split <;> try split
    all_goals first
      | exact hm
      | exact ih
      | (simp only [List.all_cons, Bool.and_eq_true, decide_eq_true_eq] at hj ⊢
         first | exact ⟨hj, hm⟩ | exact ⟨hi, hj, hm⟩ | exact ⟨hi, hm⟩ | exact ⟨hj, ih⟩)

end Sys2Proof.Machine
end

