-- ==== Sys2Proof/Laws/Ops.lean ====
section
/-! SUPPORT. For each shared operation over the bus, the queue and the operands, one lemma that says what it does. -/

namespace Sys2Proof.Machine

/-! ### What a read depends on -/

/-- A byte read depends on memory, its size, the offset and the devices only (R53). -/
theorem busGet_congr {s t : State} (h1 : t.ram = s.ram) (h2 : t.memSize = s.memSize) (h3 : t.offset = s.offset)
    (h4 : t.devices = s.devices) (a : Nat) : busGet t a = busGet s a := by
  simp only [busGet, h1, h2, h3, h4]

theorem byteAt_congr {s t : State} (h : ∀ a, busGet t a = busGet s a) (a : Nat) : byteAt t a = byteAt s a := by
  simp only [byteAt, h]

theorem readBytes_congr {s t : State} (h : ∀ a, busGet t a = busGet s a) (a n : Nat) :
    readBytes t a n = readBytes s a n := by
  induction n generalizing a with
  | zero => rfl
  | succ n ih => simp only [readBytes, byteAt_congr h, ih]

theorem memRead_congr {s t : State} (h : ∀ a, busGet t a = busGet s a) (a n : Nat) : memRead t a n = memRead s a n := by
  simp only [memRead, readBytes_congr h]

/-- Nothing but registers, the queue and the status differs: the bus is the same. -/
theorem busKept_of {s t : State} {cs : List Command} (h1 : t.ram = s.ram) (h2 : t.memSize = s.memSize)
    (h3 : t.offset = s.offset) (h4 : t.devices = s.devices) (h5 : t.ext = s.ext) (h6 : t.draws = s.draws)
    (h7 : t.queue = s.queue ++ cs) : BusKept s t cs :=
  ⟨busGet_congr h1 h2 h3 h4, h1, h2, h3, h4, h5, h6, h7⟩

/-! ### Byte reads -/

/-- The one fault of a byte read is `OutOfRange` at its address (R321). -/
theorem busGet_error {s : State} {a : Nat} {f : Fault} (h : busGet s a = .error f) : f = .outOfRange a := by
  unfold busGet at h
  split at h
  · split at h
    · cases h
    · cases h; rfl
  · split at h
    · cases h
    · split at h
      · cases h; rfl
      · split at h
        · cases h
        · cases h; rfl

theorem byteAt_error {s : State} {a : Nat} {f : Fault} (h : byteAt s a = .error f) : f = .outOfRange a := by
  unfold byteAt at h
  split at h
  · exact busGet_error h
  · cases h; rfl

/-- A byte that cannot be read raises `OutOfRange` there. -/
theorem byteAt_of_not_ok {s : State} {a : Nat} (h : ∀ b, byteAt s a ≠ .ok b) : byteAt s a = .error (.outOfRange a) := by
  cases hb : byteAt s a with
  | ok b => exact absurd hb (h b)
  | error f => rw [byteAt_error hb]

/-! ### Composite reads -/

theorem Readable.tail {s : State} {a : Nat} {b : Byte} {bs : List Byte} (h : Readable s a (b :: bs)) :
    Readable s (a + 1) bs := fun k c hk => by
  have := h (k + 1) c (by simpa using hk)
  rwa [show a + 1 + k = a + (k + 1) by omega]

/-- A composite read of readable bytes (R57). -/
theorem readBytes_ok {s : State} {a : Nat} {bs : List Byte} (h : Readable s a bs) :
    readBytes s a bs.length = .ok bs := by
  induction bs generalizing a with
  | nil => rfl
  | cons b bs ih =>
    have h0 : byteAt s a = .ok b := h 0 b rfl
    simp only [List.length_cons, readBytes, h0, ih h.tail]
    rfl

theorem memRead_ok {s : State} {a n : Nat} {bs : List Byte} (h : Readable s a bs) (hn : n = bs.length) :
    memRead s a n = .ok (leWord bs) := by
  subst hn
  simp only [memRead, readBytes_ok h]
  rfl

/-- A composite read reports its lowest failing byte (R57, R58). -/
theorem readBytes_error {s : State} {a n k : Nat} (h : FirstUnreadable s a n k) :
    readBytes s a n = .error (.outOfRange (a + k)) := by
  induction n generalizing a k with
  | zero => exact absurd h.1 (Nat.not_lt_zero k)
  | succ n ih =>
    obtain ⟨h1, h2, h3⟩ := h
    cases k with
    | zero =>
      have h0 : byteAt s a = .error (.outOfRange a) := byteAt_of_not_ok h3
      simp only [readBytes, h0]
      rfl
    | succ k =>
      obtain ⟨b, hb⟩ := h2 0 (Nat.succ_pos k)
      have hb : byteAt s a = .ok b := hb
      have ih : readBytes s (a + 1) n = .error (.outOfRange (a + 1 + k)) := by
        refine ih ⟨by omega, fun j hj => ?_, fun b hb => h3 b ?_⟩
        · obtain ⟨c, hc⟩ := h2 (j + 1) (by omega)
          exact ⟨c, by rwa [show a + 1 + j = a + (j + 1) by omega]⟩
        · rwa [show a + (k + 1) = a + 1 + k by omega]
      simp only [readBytes, hb, ih, show a + 1 + k = a + (k + 1) by omega]
      rfl

theorem memRead_error {s : State} {a n k : Nat} (h : FirstUnreadable s a n k) :
    memRead s a n = .error (.outOfRange (a + k)) := by
  simp only [memRead, readBytes_error h]
  rfl

/-- Either all bytes of a composite read are readable, or one is the first that is not. -/
theorem readable_or_first (s : State) (a n : Nat) :
    (∃ bs : List Byte, bs.length = n ∧ Readable s a bs) ∨ ∃ k, FirstUnreadable s a n k := by
  induction n generalizing a with
  | zero => exact .inl ⟨[], rfl, fun k b h => by simp at h⟩
  | succ n ih =>
    cases hb : byteAt s a with
    | error f =>
      exact .inr ⟨0, Nat.succ_pos n, fun j hj => absurd hj (Nat.not_lt_zero j), fun b h => by
        rw [Nat.add_zero, hb] at h; cases h⟩
    | ok b =>
      rcases ih (a + 1) with ⟨bs, hl, hr⟩ | ⟨k, h1, h2, h3⟩
      · refine .inl ⟨b :: bs, by simp [hl], fun k c hk => ?_⟩
        cases k with
        | zero => simp only [List.getElem?_cons_zero, Option.some.injEq] at hk; subst hk; exact hb
        | succ k =>
          have := hr k c (by simpa using hk)
          rwa [show a + (k + 1) = a + 1 + k by omega]
      · refine .inr ⟨k + 1, by omega, fun j hj => ?_, fun c hc => h3 c ?_⟩
        · cases j with
          | zero => exact ⟨b, hb⟩
          | succ j =>
            obtain ⟨c, hc⟩ := h2 j (by omega)
            exact ⟨c, by rwa [show a + (j + 1) = a + 1 + j by omega]⟩
        · rwa [show a + 1 + k = a + (k + 1) by omega]

/-- An OutOfRange at a byte that cannot be read has its cause (R321). -/
theorem Fault.caused_outOfRange {s : State} {a : Nat} (h : ∀ b, byteAt s a ≠ .ok b) : (Fault.outOfRange a).Caused s :=
  ⟨rfl, fun _ e => Fault.outOfRange.inj e ▸ h⟩

/-- A composite read gives a value, or raises an OutOfRange that has its cause. -/
theorem memRead_cases (s : State) (a n : Nat) :
    (∃ v, memRead s a n = .ok v) ∨ ∃ b, memRead s a n = .error (.outOfRange b) ∧ (Fault.outOfRange b).Caused s := by
  rcases readable_or_first s a n with ⟨bs, hl, hr⟩ | ⟨k, hk⟩
  · exact .inl ⟨_, memRead_ok hr hl.symm⟩
  · exact .inr ⟨_, memRead_error hk, Fault.caused_outOfRange hk.2.2⟩

/-- The fault of a list of reads is an OutOfRange that has its cause. -/
theorem firstFault_caused {s : State} {rs : List BusRead} {f : Fault} (h : firstFault s rs = some f) :
    ∃ a, f = .outOfRange a ∧ (Fault.outOfRange a).Caused s := by
  induction rs with
  | nil => cases h
  | cons r rs ih =>
    rcases memRead_cases s r.addr.toNat r.width.bytes with ⟨v, hv⟩ | ⟨b, hb, hc⟩
    · simp only [firstFault, hv] at h
      exact ih h
    · simp only [firstFault, hb] at h
      cases h
      exact ⟨b, rfl, hc⟩

/-- A cause stays a cause where every byte reads the same. -/
theorem Fault.Caused.congr {s t : State} {f : Fault} (h : ∀ a, busGet t a = busGet s a) (c : f.Caused t) : f.Caused s :=
  ⟨c.raisable, fun a e b => byteAt_congr h a ▸ c.unreadable a e b⟩

/-! ### Bytes and values -/

theorem leWord_one (b : Byte) : leWord [b] = b.setWidth 32 := by
  simp [leWord]

theorem leWord_two (b0 b1 : Byte) : leWord [b0, b1] = (b1 ++ b0).setWidth 32 := by
  apply BitVec.eq_of_getLsbD_eq
  intro i hi
  simp only [leWord, BitVec.getLsbD_or, BitVec.getLsbD_shiftLeft, BitVec.getLsbD_setWidth, BitVec.getLsbD_append]
  have a1 : i - 8 < 32 := by omega
  by_cases h : i < 8
  · simp [h, hi]
  · have : b0.getLsbD i = false := BitVec.getLsbD_of_ge b0 i (by omega)
    simp [h, hi, a1, this]

theorem leWord_four (b0 b1 b2 b3 : Byte) : leWord [b0, b1, b2, b3] = b3 ++ b2 ++ b1 ++ b0 := by
  apply BitVec.eq_of_getLsbD_eq
  intro i hi
  simp only [leWord, BitVec.getLsbD_or, BitVec.getLsbD_shiftLeft, BitVec.getLsbD_setWidth, BitVec.getLsbD_append]
  have a1 : i - 8 < 32 := by omega
  have a2 : i - 8 - 8 < 32 := by omega
  have a3 : i - 8 - 8 - 8 < 32 := by omega
  by_cases h1 : i < 8
  · simp [h1, hi]
  · have z0 : b0.getLsbD i = false := BitVec.getLsbD_of_ge b0 i (by omega)
    by_cases h2 : i - 8 < 8
    · simp only [h1, h2, hi, z0, a1, a2, a3]; simp
    · have z1 : b1.getLsbD (i - 8) = false := BitVec.getLsbD_of_ge b1 _ (by omega)
      by_cases h3 : i - 8 - 8 < 8
      · simp only [h1, h2, h3, hi, z0, z1, a1, a2, a3]; simp
      · have z2 : b2.getLsbD (i - 8 - 8) = false := BitVec.getLsbD_of_ge b2 _ (by omega)
        simp only [h1, h2, h3, hi, z0, z1, z2, a1, a2, a3]; simp

end Sys2Proof.Machine
end

