-- ==== Sys2Proof/Laws/Bus.lean ====
section
/-! SUPPORT. What a bus write, a composite write, the apply phase and the poll phase change and what they keep. -/

namespace Sys2Proof.Machine

/-! ### What a write keeps -/

/-- What no write to the bus changes: the registers, the status, the queue, MEM_SIZE and the model's other fields. -/
structure WriteKeeps (s t : State) : Prop where
  regs : t.regs = s.regs
  memSize : t.memSize = s.memSize
  queue : t.queue = s.queue
  status : t.status = s.status
  ext : t.ext = s.ext
  draws : t.draws = s.draws

theorem WriteKeeps.refl (s : State) : WriteKeeps s s := ⟨rfl, rfl, rfl, rfl, rfl, rfl⟩

theorem WriteKeeps.trans {s t u : State} (h : WriteKeeps s t) (g : WriteKeeps t u) : WriteKeeps s u :=
  ⟨g.regs.trans h.regs, g.memSize.trans h.memSize, g.queue.trans h.queue, g.status.trans h.status, g.ext.trans h.ext,
    g.draws.trans h.draws⟩

/-- A byte write by region (R54): RAM, the offset register or a device; nothing else is touched. -/
theorem busSet_cases {s t : State} {a : Nat} {b : Byte} (h : busSet s a b = .ok t) :
    (a < Config.physicalMemoryLimit ∧ a + s.offset.toNat < s.memSize ∧
      t = { s with ram := s.ram.write (a + s.offset.toNat) b }) ∨
    (Config.physicalMemoryLimit ≤ a ∧ a < Config.offsetEnd ∧
      t = { s with offset := setByte s.offset (a - Config.physicalMemoryLimit) b }) ∨
    (Config.deviceBaseMin ≤ a ∧ ∃ ds, deviceWrite s.devices a b = some ds ∧ t = { s with devices := ds }) := by
  unfold busSet at h
  split at h
  · rename_i h1
    split at h
    · rename_i h2; cases h; exact .inl ⟨h1, h2, rfl⟩
    · cases h
  · rename_i h1
    split at h
    · rename_i h2; cases h; exact .inr (.inl ⟨by omega, h2, rfl⟩)
    · split at h
      · cases h
      · rename_i h3
        split at h
        · rename_i ds hds; cases h; exact .inr (.inr ⟨by omega, ds, hds, rfl⟩)
        · cases h

theorem busSet_keeps {s t : State} {a : Nat} {b : Byte} (h : busSet s a b = .ok t) : WriteKeeps s t := by
  rcases busSet_cases h with ⟨_, _, rfl⟩ | ⟨_, _, rfl⟩ | ⟨_, _, _, rfl⟩ <;> exact ⟨rfl, rfl, rfl, rfl, rfl, rfl⟩

theorem busSet_error {s : State} {a : Nat} {b : Byte} {f : Fault} (h : busSet s a b = .error f) : f = .outOfRange a := by
  unfold busSet at h
  split at h
  · split at h
    · cases h
    · cases h; rfl
  · split at h
    · cases h
    · split at h
      · cases h; rfl
      · split at h
        · cases h
        · cases h; rfl

/-- A composite write keeps what a byte write keeps, whether it ends or is stopped (R59). -/
theorem busWrite_keeps {bs : List Byte} {s : State} {a : Nat} : WriteKeeps s (busWrite s a bs).1 := by
  induction bs generalizing s a with
  | nil => exact .refl s
  | cons b bs ih =>
    unfold busWrite
    split
    · split
      · exact .refl s
      · rename_i s' h
        exact (busSet_keeps h).trans ih
    · exact .refl s

/-- The one fault of a composite write is `OutOfRange` (R321). -/
theorem busWrite_error {bs : List Byte} {s t : State} {a : Nat} {f : Fault} (h : busWrite s a bs = (t, some f)) :
    ∃ b, f = .outOfRange b := by
  induction bs generalizing s a with
  | nil => cases h
  | cons b bs ih =>
    unfold busWrite at h
    split at h
    · split at h
      · rename_i g hg
        cases h
        exact ⟨a, busSet_error hg⟩
      · exact ih h
    · cases h
      exact ⟨a, rfl⟩

/-- The registers come through the apply phase unchanged (R40). -/
theorem applyQueue_regs {q : List Command} {s : State} : (applyQueue q s).regs = s.regs := by
  induction q generalizing s with
  | nil => rfl
  | cons c cs ih =>
    unfold applyQueue
    have hk := busWrite_keeps (s := s) (a := c.addr.toNat) (bs := c.bytes)
    split <;> rename_i s' h <;> rw [h] at hk
    · exact ih.trans hk.regs
    · exact hk.regs

/-- The apply phase of a queue of one command (R75, R76). -/
theorem appliesOne_of_queue {t : State} {c : Command} (hq : t.queue = [c]) : AppliesOne t c := by
  have hk := busWrite_keeps (s := t.setQueue []) (a := c.addr.toNat) (bs := c.bytes)
  constructor
  · intro u hu
    rw [hu] at hk
    refine ⟨?_, hk.regs⟩
    simp only [applyPhase, hq, applyQueue, hu]
  · intro u f hu
    rw [hu] at hk
    refine ⟨?_, hk.regs⟩
    simp only [applyPhase, hq, applyQueue, hu]
    rfl

/-! ### Device tables -/

theorem DeviceEntry.shape_set (d : DeviceEntry) (a : Nat) (b : Byte) : (d.set a b).shape = d.shape := by
  obtain ⟨base, dev⟩ := d
  cases dev <;> rfl

theorem DeviceEntry.placed_of_shape {d e : DeviceEntry} (h : d.shape = e.shape) : d.placed = e.placed := by
  obtain ⟨b1, d1⟩ := d
  obtain ⟨b2, d2⟩ := e
  cases d1 <;> cases d2 <;> simp_all [DeviceEntry.shape, DeviceEntry.placed, Device.size]; rfl

theorem DeviceEntry.isCpu_of_shape {d e : DeviceEntry} (h : d.shape = e.shape) : d.device.isCpu = e.device.isCpu := by
  obtain ⟨b1, d1⟩ := d
  obtain ⟨b2, d2⟩ := e
  cases d1 <;> cases d2 <;> simp_all [DeviceEntry.shape, Device.isCpu]

theorem DeviceEntry.installed_of_shape {d e : DeviceEntry} (h : d.shape = e.shape) : d.installed = e.installed := by
  simp only [DeviceEntry.installed, DeviceEntry.isCpu_of_shape h, show d.base = e.base from congrArg Prod.fst h]

/-- Being well formed depends on the shapes only (R69). -/
theorem deviceTableOk_of_shape {ds es : List DeviceEntry} (h : ds.map DeviceEntry.shape = es.map DeviceEntry.shape) :
    deviceTableOk ds = deviceTableOk es := by
  have key : (ds.filter fun d => d.device.isCpu).length = (es.filter fun d => d.device.isCpu).length ∧
      ds.all DeviceEntry.installed = es.all DeviceEntry.installed ∧
      ds.all DeviceEntry.placed = es.all DeviceEntry.placed := by
    induction ds generalizing es with
    | nil => cases es with
      | nil => exact ⟨rfl, rfl, rfl⟩
      | cons e es => simp at h
    | cons d ds ih => cases es with
      | nil => simp at h
      | cons e es =>
        simp only [List.map_cons, List.cons.injEq] at h
        obtain ⟨i1, i2, i3⟩ := ih h.2
        have h1 := DeviceEntry.isCpu_of_shape h.1
        have h2 := DeviceEntry.installed_of_shape h.1
        have h3 := DeviceEntry.placed_of_shape h.1
        refine ⟨?_, by simp only [List.all_cons, i2, h2], by simp only [List.all_cons, i3, h3]⟩
        simp only [List.filter_cons, h1]
        split <;> simp [i1]
  simp only [deviceTableOk, key.1, key.2.1, key.2.2]

theorem deviceWrite_shape {ds es : List DeviceEntry} {a : Nat} {b : Byte} (h : deviceWrite ds a b = some es) :
    es.map DeviceEntry.shape = ds.map DeviceEntry.shape := by
  induction ds generalizing es with
  | nil => cases h
  | cons d ds ih =>
    unfold deviceWrite at h
    split at h
    · cases h; simp [DeviceEntry.shape_set]
    · cases hr : deviceWrite ds a b with
      | none => rw [hr] at h; cases h
      | some fs => rw [hr] at h; cases h; simp [ih hr]

theorem busSet_shape {s t : State} {a : Nat} {b : Byte} (h : busSet s a b = .ok t) :
    t.devices.map DeviceEntry.shape = s.devices.map DeviceEntry.shape := by
  rcases busSet_cases h with ⟨_, _, rfl⟩ | ⟨_, _, rfl⟩ | ⟨_, ds, hds, rfl⟩
  · rfl
  · rfl
  · exact deviceWrite_shape hds

theorem busWrite_shape {bs : List Byte} {s : State} {a : Nat} :
    (busWrite s a bs).1.devices.map DeviceEntry.shape = s.devices.map DeviceEntry.shape := by
  induction bs generalizing s a with
  | nil => rfl
  | cons b bs ih =>
    unfold busWrite
    split
    · split
      · rfl
      · rename_i s' h
        exact ih.trans (busSet_shape h)
    · rfl

/-! ### Memory in canonical form -/

theorem busSet_wf {s t : State} {a : Nat} {b : Byte} (h : busSet s a b = .ok t) (hw : s.ram.wf = true) :
    t.ram.wf = true := by
  rcases busSet_cases h with ⟨_, _, rfl⟩ | ⟨_, _, rfl⟩ | ⟨_, _, _, rfl⟩
  · exact Memory.wf_write hw _ _
  · exact hw
  · exact hw

theorem busSet_below {s t : State} {a : Nat} {b : Byte} (h : busSet s a b = .ok t) (hb : s.ram.below s.memSize = true) :
    t.ram.below t.memSize = true := by
  rcases busSet_cases h with ⟨_, hi, rfl⟩ | ⟨_, _, rfl⟩ | ⟨_, _, _, rfl⟩
  · exact Memory.below_write hb hi _
  · exact hb
  · exact hb

theorem busWrite_wf {bs : List Byte} {s : State} {a : Nat} (hw : s.ram.wf = true) :
    (busWrite s a bs).1.ram.wf = true := by
  induction bs generalizing s a with
  | nil => exact hw
  | cons b bs ih =>
    unfold busWrite
    split
    · split
      · exact hw
      · rename_i s' h
        exact ih (busSet_wf h hw)
    · exact hw

theorem busWrite_below {bs : List Byte} {s : State} {a : Nat} (hb : s.ram.below s.memSize = true) :
    (busWrite s a bs).1.ram.below (busWrite s a bs).1.memSize = true := by
  induction bs generalizing s a with
  | nil => exact hb
  | cons b bs ih =>
    unfold busWrite
    split
    · split
      · exact hb
      · rename_i s' h
        exact ih (busSet_below h hb)
    · exact hb

/-! ### A byte of RAM after a write -/

/-- A RAM byte written is read back, and every other address reads as before, when the write was to RAM (R52 to R54). -/
theorem busGet_busSet_ram {s t : State} {a : Nat} {b : Byte} (hw : s.ram.wf = true) (ha : a < Config.physicalMemoryLimit)
    (h : busSet s a b = .ok t) (c : Nat) : busGet t c = if c = a then .ok b else busGet s c := by
  rcases busSet_cases h with ⟨_, hi, rfl⟩ | ⟨hl, _, rfl⟩ | ⟨hl, _, _, rfl⟩
  · have hr : ∀ k, (s.ram.write (a + s.offset.toNat) b).read k = if k = a + s.offset.toNat then b else s.ram.read k :=
      fun k => Memory.read_write hw _ _ _
    unfold busGet
    by_cases hc : c = a
    · subst hc; simp [ha, hi, hr]
    · simp only [hr, if_neg hc]
      by_cases hlt : c < Config.physicalMemoryLimit
      · simp [hlt, hc]
      · simp [hlt]
  · omega
  · have : Config.physicalMemoryLimit ≤ Config.deviceBaseMin := by decide
    omega

/-! ### The offset register (R50, R54, R55) -/

theorem busGet_offset (s : State) {k : Nat} (hk : k < 4) :
    busGet s (Config.physicalMemoryLimit + k) = .ok (getByte s.offset k) := by
  have h1 : ¬ Config.physicalMemoryLimit + k < Config.physicalMemoryLimit := by omega
  have h2 : Config.physicalMemoryLimit + k < Config.offsetEnd := by
    simp only [Config.physicalMemoryLimit, Config.offsetEnd]; omega
  simp only [busGet, if_neg h1, if_pos h2, Nat.add_sub_cancel_left]

theorem busSet_offset (s : State) {k : Nat} (v : Byte) (hk : k < 4) :
    busSet s (Config.physicalMemoryLimit + k) v = .ok { s with offset := setByte s.offset k v } := by
  have h1 : ¬ Config.physicalMemoryLimit + k < Config.physicalMemoryLimit := by omega
  have h2 : Config.physicalMemoryLimit + k < Config.offsetEnd := by
    simp only [Config.physicalMemoryLimit, Config.offsetEnd]; omega
  simp only [busSet, if_neg h1, if_pos h2, Nat.add_sub_cancel_left]

/-- A byte of a word after one of its bytes is replaced. -/
theorem getByte_setByte (w : Word) {k j : Nat} (v : Byte) (hj : j < 4) :
    getByte (setByte w k v) j = if j = k then v else getByte w j := by
  apply BitVec.eq_of_getLsbD_eq
  intro i hi
  have e : (0xFF#32).getLsbD = fun i => decide (i < 8) := by
    funext i
    by_cases h : i < 32
    · revert i; decide
    · rw [BitVec.getLsbD_of_ge _ _ (by omega)]; simp; omega
  have e1 : (getByte (setByte w k v) j).getLsbD i = (setByte w k v).getLsbD (8 * j + i) := by
    simp [getByte, hi]
  have e2 : (getByte w j).getLsbD i = w.getLsbD (8 * j + i) := by simp [getByte, hi]
  have hi32 : 8 * j + i < 32 := by omega
  rw [e1]
  simp only [setByte, BitVec.getLsbD_or, BitVec.getLsbD_and, BitVec.getLsbD_not, BitVec.getLsbD_shiftLeft, e,
    BitVec.getLsbD_setWidth]
  by_cases h : j = k
  · subst h
    have h1 : ¬ 8 * j + i < 8 * j := by omega
    have h2 : 8 * j + i - 8 * j = i := by omega
    simp [hi, hi32, h1, h2]
    omega
  · rw [if_neg h, e2]
    by_cases hlt : j < k
    · have h1 : 8 * j + i < 8 * k := by omega
      simp [hi32, h1]
    · have h1 : ¬ 8 * j + i < 8 * k := by omega
      have h2 : ¬ 8 * j + i - 8 * k < 8 := by omega
      have h3 : v.getLsbD (8 * j + i - 8 * k) = false := BitVec.getLsbD_of_ge v _ (by omega)
      simp [hi32, h1, h2, h3]

/-- A word is its four bytes. -/
theorem word_eq_of_getByte {x y : Word} (h : ∀ j, j < 4 → getByte x j = getByte y j) : x = y := by
  apply BitVec.eq_of_getLsbD_eq
  intro i hi
  have h := congrArg (fun b : Byte => b.getLsbD (i % 8)) (h (i / 8) (by omega))
  have e1 : 8 * (i / 8) + i % 8 = i := by omega
  have e2 : i % 8 < 8 := by omega
  simpa [getByte, e1, e2] using h

/-! ### A composite write to RAM -/

/-- A composite write whose bytes all lie in RAM ends without a fault, its bytes are read back and every other address
reads as before (R52, R54, R59). -/
theorem busWrite_ram {bs : List Byte} {s : State} {a : Nat} (hw : s.ram.wf = true)
    (ha : a + bs.length ≤ Config.physicalMemoryLimit) (hm : a + bs.length + s.offset.toNat ≤ s.memSize) :
    ∃ t, busWrite s a bs = (t, none) ∧ t.ram.wf = true ∧ t.offset = s.offset ∧ t.devices = s.devices ∧
      (∀ k b, bs[k]? = some b → busGet t (a + k) = .ok b) ∧
      ∀ c, c < a ∨ a + bs.length ≤ c → busGet t c = busGet s c := by
  induction bs generalizing s a with
  | nil => exact ⟨s, rfl, hw, rfl, rfl, fun k b h => by simp at h, fun _ _ => rfl⟩
  | cons b bs ih =>
    simp only [List.length_cons] at ha hm
    have h1 : a < Config.physicalMemoryLimit := by omega
    have h2 : a + s.offset.toNat < s.memSize := by omega
    have h3 : a < Config.addressSpace := by simp only [Config.physicalMemoryLimit, Config.addressSpace] at *; omega
    have hs : busSet s a b = .ok { s with ram := s.ram.write (a + s.offset.toNat) b } := by
      simp only [busSet, if_pos h1, if_pos h2]
    obtain ⟨t, t1, t2, t3, t4, t5, t6⟩ := ih (s := { s with ram := s.ram.write (a + s.offset.toNat) b }) (a := a + 1)
      (Memory.wf_write hw _ _) (by omega) (by simp only; omega)
    refine ⟨t, by rw [busWrite, if_pos h3]; simp only [hs, t1], t2, t3, t4, fun k c hk => ?_, fun c hc => ?_⟩
    · cases k with
      | zero =>
        simp only [List.getElem?_cons_zero, Option.some.injEq] at hk
        subst hk
        rw [t6 _ (by omega), busGet_busSet_ram hw h1 hs]; simp
      | succ k =>
        rw [show a + (k + 1) = a + 1 + k by omega]
        exact t5 k c (by simpa using hk)
    · simp only [List.length_cons] at hc
      rw [t6 _ (by omega), busGet_busSet_ram hw h1 hs, if_neg (by omega)]

end Sys2Proof.Machine
end

