-- ==== Sys2Proof/Laws/Decode.lean ====
section
/-! SUPPORT. What the decoder reads from the bytes of each format (spec/30_encoding.md R103, R104), and that an operand's
bytes are read back as its value. -/

namespace Sys2Proof

/-! ### Registers and fields -/

@[simp] theorem Reg.ofIndex_index (r : Reg) : Reg.ofIndex r.index = r := by cases r <;> rfl

theorem Reg.index_ofIndex (n : BitVec 4) : (Reg.ofIndex n).index = n := by
  revert n; decide

theorem append_bytes32 (v : Word) :
    v.extractLsb' 24 8 ++ v.extractLsb' 16 8 ++ v.extractLsb' 8 8 ++ v.extractLsb' 0 8 = v := by
  apply BitVec.eq_of_getLsbD_eq
  intro i hi
  simp only [BitVec.getLsbD_append, BitVec.getLsbD_extractLsb']
  by_cases h1 : i < 8
  · simp [h1]
  · by_cases h2 : i - 8 < 8
    · simp [h1, h2, show 8 + (i - 8) = i by omega]
    · by_cases h3 : i - 8 - 8 < 8
      · simp [h1, h2, h3, show 16 + (i - 8 - 8) = i by omega]
      · simp [h1, h2, h3, show 24 + (i - 8 - 8 - 8) = i by omega]
        intro _; omega

theorem append_bytes16 (v : BitVec 16) : v.extractLsb' 8 8 ++ v.extractLsb' 0 8 = v := by
  apply BitVec.eq_of_getLsbD_eq
  intro i hi
  simp only [BitVec.getLsbD_append, BitVec.getLsbD_extractLsb']
  by_cases h1 : i < 8
  · simp [h1]
  · simp [h1, show 8 + (i - 8) = i by omega]
    intro _; omega

theorem readByte_of {get : ByteReader} {k : Nat} {b : Byte} (h : get k = some b) : readByte get k = .ok b := by
  simp only [readByte, h]

theorem readField16_of {get : ByteReader} {k : Nat} {v : BitVec 16} (h0 : get k = some (v.extractLsb' 0 8))
    (h1 : get (k + 1) = some (v.extractLsb' 8 8)) : readField16 get k = .ok v := by
  simp only [readField16, readByte_of h0, readByte_of h1]
  exact congrArg Except.ok (append_bytes16 v)

theorem readField32_of {get : ByteReader} {k : Nat} {v : Word} (h0 : get k = some (v.extractLsb' 0 8))
    (h1 : get (k + 1) = some (v.extractLsb' 8 8)) (h2 : get (k + 2) = some (v.extractLsb' 16 8))
    (h3 : get (k + 3) = some (v.extractLsb' 24 8)) : readField32 get k = .ok v := by
  simp only [readField32, readByte_of h0, readByte_of h1, readByte_of h2, readByte_of h3]
  exact congrArg Except.ok (append_bytes32 v)

theorem readLoneReg_of {op : Byte} {get : ByteReader} {k : Nat} {r : Reg} (h : get k = some (0#4 ++ r.index)) :
    readLoneReg op get k = .ok r := by
  simp only [readLoneReg, readByte_of h]
  cases r <;> rfl

/-- A lone register byte above 0x0F is illegal (R105). -/
theorem readLoneReg_illegal {op : Byte} {get : ByteReader} {k : Nat} {b : Byte} (h : get k = some b)
    (hb : 0x10 ≤ b.toNat) : readLoneReg op get k = .error (.illegalInstruction op) := by
  simp only [readLoneReg, readByte_of h]
  show (if b.toNat ≤ 0x0F then _ else _) = _
  rw [if_neg (by omega)]

/-- The two nibbles of a pair byte (R102, R106). -/
theorem pair_high (r1 r2 : Reg) : Reg.ofIndex ((r1.index ++ r2.index).extractLsb' 4 4) = r1 := by
  cases r1 <;> cases r2 <;> rfl

theorem pair_low (r1 r2 : Reg) : Reg.ofIndex ((r1.index ++ r2.index).extractLsb' 0 4) = r2 := by
  cases r1 <;> cases r2 <;> rfl

/-! ### The fifteen formats -/

/-- The reader agrees with a list of bytes as far as the list goes. -/
def Agrees (get : ByteReader) (bs : List Byte) : Prop := ∀ k b, bs[k]? = some b → get k = some b

section Formats
variable {get : ByteReader} {op : Byte}

theorem decode_form {form : Form} (hf : formOf op = some form) (h0 : get 0 = some op) :
    decode get = form.decode op get := by
  simp only [decode, readByte_of h0]
  show (match formOf op with | none => _ | some form => _) = _
  rw [hf]

theorem decode_none {mk : Instr} (hf : formOf op = some (.none mk)) (h : Agrees get [op]) : decode get = .ok mk := by
  rw [decode_form hf (h 0 _ rfl)]; rfl

theorem decode_r {mk : Reg → Instr} {r : Reg} (hf : formOf op = some (.r mk)) (h : Agrees get [op, 0#4 ++ r.index]) :
    decode get = .ok (mk r) := by
  rw [decode_form hf (h 0 _ rfl)]
  simp only [Form.decode, readLoneReg_of (h 1 _ rfl)]; rfl

theorem decode_v8 {mk : BitVec 8 → Instr} {v : BitVec 8} (hf : formOf op = some (.v8 mk)) (h : Agrees get [op, v]) :
    decode get = .ok (mk v) := by
  rw [decode_form hf (h 0 _ rfl)]
  simp only [Form.decode, readByte_of (h 1 _ rfl)]; rfl

theorem decode_v16 {mk : BitVec 16 → Instr} {v : BitVec 16} (hf : formOf op = some (.v16 mk))
    (h : Agrees get (op :: bytes16 v)) : decode get = .ok (mk v) := by
  rw [decode_form hf (h 0 _ rfl)]
  simp only [Form.decode, readField16_of (h 1 _ rfl) (h 2 _ rfl)]; rfl

theorem decode_v32 {mk : Word → Instr} {v : Word} (hf : formOf op = some (.v32 mk)) (h : Agrees get (op :: bytes32 v)) :
    decode get = .ok (mk v) := by
  rw [decode_form hf (h 0 _ rfl)]
  simp only [Form.decode, readField32_of (h 1 _ rfl) (h 2 _ rfl) (h 3 _ rfl) (h 4 _ rfl)]; rfl

theorem decode_rr {mk : Reg → Reg → Instr} {r1 r2 : Reg} (hf : formOf op = some (.rr mk))
    (h : Agrees get [op, r1.index ++ r2.index]) : decode get = .ok (mk r1 r2) := by
  rw [decode_form hf (h 0 _ rfl)]
  simp only [Form.decode, readByte_of (h 1 _ rfl)]
  show Except.ok (mk _ _) = _
  rw [pair_high, pair_low]

theorem decode_rV8 {mk : Reg → BitVec 8 → Instr} {r : Reg} {v : BitVec 8} (hf : formOf op = some (.rV8 mk))
    (h : Agrees get [op, 0#4 ++ r.index, v]) : decode get = .ok (mk r v) := by
  rw [decode_form hf (h 0 _ rfl)]
  simp only [Form.decode, readLoneReg_of (h 1 _ rfl), readByte_of (h 2 _ rfl)]; rfl

theorem decode_rV16 {mk : Reg → BitVec 16 → Instr} {r : Reg} {v : BitVec 16} (hf : formOf op = some (.rV16 mk))
    (h : Agrees get (op :: (0#4 ++ r.index) :: bytes16 v)) : decode get = .ok (mk r v) := by
  rw [decode_form hf (h 0 _ rfl)]
  simp only [Form.decode, readLoneReg_of (h 1 _ rfl), readField16_of (h 2 _ rfl) (h 3 _ rfl)]; rfl

theorem decode_rV32 {mk : Reg → Word → Instr} {r : Reg} {v : Word} (hf : formOf op = some (.rV32 mk))
    (h : Agrees get (op :: (0#4 ++ r.index) :: bytes32 v)) : decode get = .ok (mk r v) := by
  rw [decode_form hf (h 0 _ rfl)]
  simp only [Form.decode, readLoneReg_of (h 1 _ rfl),
    readField32_of (h 2 _ rfl) (h 3 _ rfl) (h 4 _ rfl) (h 5 _ rfl)]; rfl

theorem decode_rM {mk : Reg → Word → Instr} {r : Reg} {v : Word} (hf : formOf op = some (.rM mk))
    (h : Agrees get (op :: (0#4 ++ r.index) :: bytes32 v)) : decode get = .ok (mk r v) := by
  rw [decode_form hf (h 0 _ rfl)]
  simp only [Form.decode, readLoneReg_of (h 1 _ rfl),
    readField32_of (h 2 _ rfl) (h 3 _ rfl) (h 4 _ rfl) (h 5 _ rfl)]; rfl

theorem decode_mR {mk : Word → Reg → Instr} {r : Reg} {a : Word} (hf : formOf op = some (.mR mk))
    (h : Agrees get (op :: bytes32 a ++ [0#4 ++ r.index])) : decode get = .ok (mk a r) := by
  rw [decode_form hf (h 0 _ rfl)]
  simp only [Form.decode, readField32_of (h 1 _ rfl) (h 2 _ rfl) (h 3 _ rfl) (h 4 _ rfl), readLoneReg_of (h 5 _ rfl)]
  rfl

theorem decode_mV8 {mk : Word → BitVec 8 → Instr} {a : Word} {v : BitVec 8} (hf : formOf op = some (.mV8 mk))
    (h : Agrees get (op :: bytes32 a ++ [v])) : decode get = .ok (mk a v) := by
  rw [decode_form hf (h 0 _ rfl)]
  simp only [Form.decode, readField32_of (h 1 _ rfl) (h 2 _ rfl) (h 3 _ rfl) (h 4 _ rfl), readByte_of (h 5 _ rfl)]
  rfl

theorem decode_mV16 {mk : Word → BitVec 16 → Instr} {a : Word} {v : BitVec 16} (hf : formOf op = some (.mV16 mk))
    (h : Agrees get (op :: bytes32 a ++ bytes16 v)) : decode get = .ok (mk a v) := by
  rw [decode_form hf (h 0 _ rfl)]
  simp only [Form.decode, readField32_of (h 1 _ rfl) (h 2 _ rfl) (h 3 _ rfl) (h 4 _ rfl),
    readField16_of (h 5 _ rfl) (h 6 _ rfl)]
  rfl

theorem decode_mV32 {mk : Word → Word → Instr} {a v : Word} (hf : formOf op = some (.mV32 mk))
    (h : Agrees get (op :: bytes32 a ++ bytes32 v)) : decode get = .ok (mk a v) := by
  rw [decode_form hf (h 0 _ rfl)]
  simp only [Form.decode, readField32_of (h 1 _ rfl) (h 2 _ rfl) (h 3 _ rfl) (h 4 _ rfl),
    readField32_of (h 5 _ rfl) (h 6 _ rfl) (h 7 _ rfl) (h 8 _ rfl)]
  rfl

theorem decode_mM {mk : Word → Word → Instr} {a v : Word} (hf : formOf op = some (.mM mk))
    (h : Agrees get (op :: bytes32 a ++ bytes32 v)) : decode get = .ok (mk a v) := by
  rw [decode_form hf (h 0 _ rfl)]
  simp only [Form.decode, readField32_of (h 1 _ rfl) (h 2 _ rfl) (h 3 _ rfl) (h 4 _ rfl),
    readField32_of (h 5 _ rfl) (h 6 _ rfl) (h 7 _ rfl) (h 8 _ rfl)]
  rfl

/-! ### A lone register byte above 0x0F, format by format (R105) -/

theorem decode_r_illegal {mk : Reg → Instr} {b : Byte} (hf : formOf op = some (.r mk)) (h0 : get 0 = some op)
    (h : get 1 = some b) (hb : 0x10 ≤ b.toNat) : decode get = .error (.illegalInstruction op) := by
  rw [decode_form hf h0]
  simp only [Form.decode, readLoneReg_illegal h hb]; rfl

theorem decode_rV8_illegal {mk : Reg → BitVec 8 → Instr} {b : Byte} (hf : formOf op = some (.rV8 mk)) (h0 : get 0 = some op)
    (h : get 1 = some b) (hb : 0x10 ≤ b.toNat) : decode get = .error (.illegalInstruction op) := by
  rw [decode_form hf h0]
  simp only [Form.decode, readLoneReg_illegal h hb]; rfl

theorem decode_rV16_illegal {mk : Reg → BitVec 16 → Instr} {b : Byte} (hf : formOf op = some (.rV16 mk)) (h0 : get 0 = some op)
    (h : get 1 = some b) (hb : 0x10 ≤ b.toNat) : decode get = .error (.illegalInstruction op) := by
  rw [decode_form hf h0]
  simp only [Form.decode, readLoneReg_illegal h hb]; rfl

theorem decode_rV32_illegal {mk : Reg → Word → Instr} {b : Byte} (hf : formOf op = some (.rV32 mk)) (h0 : get 0 = some op)
    (h : get 1 = some b) (hb : 0x10 ≤ b.toNat) : decode get = .error (.illegalInstruction op) := by
  rw [decode_form hf h0]
  simp only [Form.decode, readLoneReg_illegal h hb]; rfl

theorem decode_rM_illegal {mk : Reg → Word → Instr} {b : Byte} (hf : formOf op = some (.rM mk)) (h0 : get 0 = some op)
    (h : get 1 = some b) (hb : 0x10 ≤ b.toNat) : decode get = .error (.illegalInstruction op) := by
  rw [decode_form hf h0]
  simp only [Form.decode, readLoneReg_illegal h hb]; rfl

theorem decode_mR_illegal {mk : Word → Reg → Instr} {a : Word} {b : Byte} (hf : formOf op = some (.mR mk))
    (h0 : Agrees get (op :: bytes32 a)) (h : get 5 = some b) (hb : 0x10 ≤ b.toNat) :
    decode get = .error (.illegalInstruction op) := by
  rw [decode_form hf (h0 0 _ rfl)]
  simp only [Form.decode, readField32_of (h0 1 _ rfl) (h0 2 _ rfl) (h0 3 _ rfl) (h0 4 _ rfl), readLoneReg_illegal h hb]
  rfl

end Formats

/-! ### The byte a failed decode could not read -/

/-- A read of the decoder that stops on a byte stops on one the reader does not have (R104). -/
def StopsOnMissing {α : Type} (get : ByteReader) (x : Except DecodeError α) : Prop :=
  ∀ k, x = .error (.unreadable k) → get k = none

section Missing
variable {α β : Type} {get : ByteReader}

theorem stopsOnMissing_ok (x : α) : StopsOnMissing get (.ok x) := fun _ h => by cases h

theorem stopsOnMissing_bind {x : Except DecodeError α} {f : α → Except DecodeError β} (hx : StopsOnMissing get x)
    (hf : ∀ a, StopsOnMissing get (f a)) : StopsOnMissing get (x >>= f) := by
  cases x with
  | error e => exact fun k h => hx k (by cases h; rfl)
  | ok a => exact hf a

theorem readByte_missing (k : Nat) : StopsOnMissing get (readByte get k) := by
  intro j h
  unfold readByte at h
  split at h
  · cases h
  · rename_i hk
    cases h
    exact hk

theorem readField16_missing (k : Nat) : StopsOnMissing get (readField16 get k) :=
  stopsOnMissing_bind (readByte_missing k) fun _ => stopsOnMissing_bind (readByte_missing _) fun _ => stopsOnMissing_ok _

theorem readField32_missing (k : Nat) : StopsOnMissing get (readField32 get k) :=
  stopsOnMissing_bind (readByte_missing k) fun _ => stopsOnMissing_bind (readByte_missing _) fun _ =>
    stopsOnMissing_bind (readByte_missing _) fun _ => stopsOnMissing_bind (readByte_missing _) fun _ => stopsOnMissing_ok _

theorem readLoneReg_missing (op : Byte) (k : Nat) : StopsOnMissing get (readLoneReg op get k) :=
  stopsOnMissing_bind (readByte_missing k) fun b => by
    split
    · exact stopsOnMissing_ok _
    · exact fun _ h => by cases h

theorem form_decode_missing (op : Byte) (form : Form) : StopsOnMissing get (form.decode op get) := by
  cases form <;>
    repeat (first
      | exact stopsOnMissing_ok _
      | refine stopsOnMissing_bind (readByte_missing _) fun _ => ?_
      | refine stopsOnMissing_bind (readLoneReg_missing _ _) fun _ => ?_
      | refine stopsOnMissing_bind (readField16_missing _) fun _ => ?_
      | refine stopsOnMissing_bind (readField32_missing _) fun _ => ?_)

/-- The byte a failed decode could not read is one the reader does not have. -/
theorem decode_unreadable {k : Nat} (h : decode get = .error (.unreadable k)) : get k = none := by
  refine stopsOnMissing_bind (readByte_missing 0) (fun op => ?_) k h
  cases formOf op with
  | none => exact fun _ h => by cases h
  | some form => exact form_decode_missing op form

end Missing

end Sys2Proof
end

