-- ==== Sys2Proof/Laws/Exec.lean ====
section
/-! SUPPORT. For each shared shape of an instruction (Sys2Proof/Machine/Move.lean to Misc.lean), one lemma that says once what
it does when its operands can be read, and one for the fault it takes when they cannot. -/

namespace Sys2Proof.Machine

/-! ### Reading an operand -/

theorem readOp_regInd_ok {s : State} {r : Reg} {b0 b1 b2 b3 : Byte} (h : Readable s (s.reg r).toNat [b0, b1, b2, b3]) :
    readOp (.regInd r) s = .ok (b3 ++ b2 ++ b1 ++ b0) := by
  rw [← leWord_four]; exact memRead_ok h rfl

theorem readOp_memInd_ok {s : State} {a : Word} {b0 b1 b2 b3 : Byte} (h : Readable s a.toNat [b0, b1, b2, b3]) :
    readOp (.memInd a) s = .ok (b3 ++ b2 ++ b1 ++ b0) := by
  rw [← leWord_four]; exact memRead_ok h rfl

theorem readOp_regInd_error {s : State} {r : Reg} {k : Nat} (h : FirstUnreadable s (s.reg r).toNat 4 k) :
    readOp (.regInd r) s = .error (.outOfRange ((s.reg r).toNat + k)) := memRead_error h

theorem readOp_memInd_error {s : State} {a : Word} {k : Nat} (h : FirstUnreadable s a.toNat 4 k) :
    readOp (.memInd a) s = .error (.outOfRange (a.toNat + k)) := memRead_error h

theorem readOp_reg (s : State) (r : Reg) : readOp (.reg r) s = .ok (s.reg r) := rfl
theorem readOp_imm8 (s : State) (v : BitVec 8) : readOp (.imm8 v) s = .ok (v.setWidth 32) := rfl
theorem readOp_imm16 (s : State) (v : BitVec 16) : readOp (.imm16 v) s = .ok (v.setWidth 32) := rfl
theorem readOp_imm32 (s : State) (v : Word) : readOp (.imm32 v) s = .ok v := rfl

/-! ### Writing a register through the flag-setting path -/

/-- A register destination and the PC advance (R147, R148, R150, R152). -/
theorem finish_writeOpWith_reg (s : State) (r : Reg) (flags v : Word) (w : Width) (n len : Nat) (y ov : Bool)
    (hf : FlagsAre (s.reg .fl) flags (w.trunc v) n y ov false false) :
    ∃ t, finish len s (writeOpWith flags (.reg r) v w s) = .next t ∧ RegisterResult s t r (w.trunc v) n y ov len := by
  by_cases hp : r = .pc
  · refine ⟨(s.setReg .pc (w.trunc v)).advance len, by simp [writeOpWith, hp, finish], ?_⟩
    subst hp
    refine ⟨fun h => absurd rfl h, ?_, fun h => absurd rfl h, fun _ => ?_, fun q hq => ?_, rfl,
      busKept_of rfl rfl rfl rfl rfl rfl (by simp)⟩
    · simp [reg_advance]
    · simp [reg_advance, reg_setReg]
    · simp only [List.mem_cons, List.not_mem_nil, or_false, not_or] at hq
      simp [reg_advance, reg_setReg, hq]
  · refine ⟨((s.setReg .fl flags).setReg r (w.trunc v)).advance len, by simp [writeOpWith, hp, finish], ?_⟩
    refine ⟨fun _ => ?_, ?_, fun _ hfl => ?_, fun h => absurd h hp, fun q hq => ?_, rfl,
      busKept_of rfl rfl rfl rfl rfl rfl (by simp)⟩
    · simp [reg_advance, hp]
    · simp [reg_advance, reg_setReg, hp, Ne.symm hp]
    · simpa [reg_advance, reg_setReg, Ne.symm hfl] using hf
    · simp only [List.mem_cons, List.not_mem_nil, or_false, not_or] at hq
      simp [reg_advance, reg_setReg, hq]

/-- `mov` and the loads with a readable source (R160). -/
theorem move_reg {s : State} {o : Operand} {v : Word} (w : Width) (r : Reg) (len : Nat) (h : readOp o s = .ok v) :
    ∃ t, move w (.reg r) o len s = .next t ∧ RegisterResult s t r (w.trunc v) w.bits false false len := by
  have := finish_writeOpWith_reg s r (writeFlags (s.reg .fl) (w.trunc v) w) (w.trunc v) w w.bits len false false
    (writeFlags_flagsAre _ _ _)
  rw [trunc_trunc] at this
  simp only [move, h, writeOp]
  exact this

/-- A move whose source cannot be read (R142, R164). -/
theorem move_error {s : State} {o : Operand} {f : Fault} (w : Width) (dst : Operand) (len : Nat)
    (h : readOp o s = .error f) : move w dst o len s = .next (pollFault s f) := by
  simp only [move, h]; rfl

/-- The logic instructions on a register and a readable operand 2 (R206, R207). -/
theorem binary_reg {s : State} {o : Operand} {b : Word} (f : Word → Word → Word) (r : Reg) (len : Nat)
    (h : readOp o s = .ok b) :
    ∃ t, binary f (.reg r) o len s = .next t ∧ RegisterResult s t r (f (s.reg r) b) 32 false false len := by
  have := finish_writeOpWith_reg s r (writeFlags (s.reg .fl) (f (s.reg r) b) .w32) (f (s.reg r) b) .w32 32 len false false
    (writeFlags_flagsAre _ _ _)
  rw [trunc_w32] at this
  simp only [binary, readOp_reg, h, writeOp]
  exact this

/-- `not` on a register (R208). -/
theorem unary_reg (s : State) (f : Word → Word) (r : Reg) (len : Nat) :
    ∃ t, unary f (.reg r) len s = .next t ∧ RegisterResult s t r (f (s.reg r)) 32 false false len := by
  have := finish_writeOpWith_reg s r (writeFlags (s.reg .fl) (f (s.reg r)) .w32) (f (s.reg r)) .w32 32 len false false
    (writeFlags_flagsAre _ _ _)
  rw [trunc_w32] at this
  simp only [unary, readOp_reg, writeOp]
  exact this

/-- The arithmetic instructions that define carry and overflow (R227). -/
theorem arith_reg {s : State} {o : Operand} {b : Word} (f : Word → Word → ArithResult) (r : Reg) (len : Nat)
    (h : readOp o s = .ok b) :
    ∃ t, arith f (.reg r) o len s = .next t ∧
      RegisterResult s t r (f (s.reg r) b).value 32 (f (s.reg r) b).carry (f (s.reg r) b).overflow len := by
  have := finish_writeOpWith_reg s r
    (writeFlagsYV (s.reg .fl) (f (s.reg r) b).value .w32 (f (s.reg r) b).carry (f (s.reg r) b).overflow)
    (f (s.reg r) b).value .w32 32 len _ _ (writeFlagsYV_flagsAre _ _ _ _ _)
  rw [trunc_w32] at this
  simp only [arith, readOp_reg, h, writeOpYV]
  exact this

/-- `idiv` and `mod` by a divisor that is not zero (R229). -/
theorem divide_reg {s : State} {o : Operand} {b : Word} (f : Word → Word → Word) (r : Reg) (len : Nat)
    (h : readOp o s = .ok b) (hb : b ≠ 0) :
    ∃ t, divide f (.reg r) o len s = .next t ∧ RegisterResult s t r (f (s.reg r) b) 32 false false len := by
  have := finish_writeOpWith_reg s r (writeFlags (s.reg .fl) (f (s.reg r) b) .w32) (f (s.reg r) b) .w32 32 len false false
    (writeFlags_flagsAre _ _ _)
  rw [trunc_w32] at this
  have e : divide f (.reg r) o len s =
      finish len s (writeOpWith (writeFlags (s.reg .fl) (f (s.reg r) b) .w32) (.reg r) (f (s.reg r) b) .w32 s) := by
    simp only [divide, readOp_reg, h]
    show finish len s (if b = 0 then _ else _) = _
    rw [if_neg hb]; rfl
  rw [e]; exact this

/-- `idiv` and `mod` by zero (R324). -/
theorem divide_zero {s : State} {o : Operand} (f : Word → Word → Word) (r : Reg) (len : Nat)
    (h : readOp o s = .ok 0) : divide f (.reg r) o len s = .next (pollFault s (.divideByZero (s.reg .pc))) := by
  simp only [divide, readOp_reg, h]; rfl

/-- `cmp` (R228): only FL and PC change. -/
theorem compare_reg {s : State} {o : Operand} {b : Word} (r : Reg) (len : Nat) (h : readOp o s = .ok b) :
    ∃ t, compare (.reg r) o len s = .next t ∧
      FlagsAre (s.reg .fl) (t.reg .fl) (s.reg r - b) 32 (subWord (s.reg r) b).carry (subWord (s.reg r) b).overflow
        (decide (b.toNat < (s.reg r).toNat)) (decide ((s.reg r).toNat < b.toNat)) ∧
      t.reg .pc = s.reg .pc + BitVec.ofNat 32 len ∧ RegsKept s t [.pc, .fl] ∧ t.status = s.status ∧ BusKept s t [] := by
  refine ⟨(s.setReg .fl (compareFlags (s.reg .fl) (s.reg r) b)).advance len, by simp only [compare, readOp_reg, h]; rfl,
    ?_, ?_, fun q hq => ?_, rfl, busKept_of rfl rfl rfl rfl rfl rfl (by simp)⟩
  · simpa [reg_advance] using compareFlags_flagsAre (s.reg .fl) (s.reg r) b
  · simp [reg_advance, reg_setReg]
  · simp only [List.mem_cons, List.not_mem_nil, or_false, not_or] at hq
    simp [reg_advance, reg_setReg, hq]

/-! ### Stores -/

/-- The command of a store of an already truncated value is the command of the value (R74). -/
theorem store_trunc (a : Word) (w : Width) (v : Word) : Command.store a w (w.trunc v) = Command.store a w v := by
  cases w <;> simp [Command.store, Width.trunc, Width.bits]

/-- A state that has queued one store and advanced PC (R147, R152). -/
theorem storeResult_of {s : State} {flags v : Word} {n : Nat} (c : Command) (len : Nat)
    (hf : FlagsAre (s.reg .fl) flags v n false false false false) :
    StoreResult s (((s.setReg .fl flags).enqueue [c]).advance len) v n c len := by
  refine ⟨?_, ?_, fun q hq => ?_, rfl, busKept_of rfl rfl rfl rfl rfl rfl rfl, fun hq => appliesOne_of_queue ?_⟩
  · simpa [reg_advance] using hf
  · simp [reg_advance, reg_setReg]
  · simp only [List.mem_cons, List.not_mem_nil, or_false, not_or] at hq
    simp [reg_advance, reg_setReg, hq]
  · simp [hq]

/-- A move into the memory a register names, with a readable source (R151, R160). -/
theorem move_regInd {s : State} {o : Operand} {v : Word} (w : Width) (r : Reg) (len : Nat) (h : readOp o s = .ok v) :
    ∃ t, move w (.regInd r) o len s = .next t ∧
      StoreResult s t (w.trunc v) w.bits (Command.store (storeAddress s t r) w v) len := by
  refine ⟨_, by simp only [move, h]; rfl, ?_⟩
  have hf := writeFlags_flagsAre (s.reg .fl) (w.trunc v) w
  rw [trunc_trunc] at hf
  have e : storeAddress s (((s.setReg .fl (writeFlags (s.reg .fl) (w.trunc v) w)).memWrite
      ((s.setReg .fl (writeFlags (s.reg .fl) (w.trunc v) w)).reg r) w (w.trunc (w.trunc v))).advance len) r =
      (s.setReg .fl (writeFlags (s.reg .fl) (w.trunc v) w)).reg r := by
    unfold storeAddress
    by_cases hr : r = .fl
    · simp [hr, reg_advance]
    · simp [hr, reg_setReg]
  rw [e]
  have e2 : ∀ a, Command.store a w v = Command.store a w (w.trunc (w.trunc v)) := fun a => by
    rw [store_trunc, store_trunc]
  rw [e2]
  exact storeResult_of _ len hf

/-- A move into the memory at an embedded address, with a readable source (R147, R160). -/
theorem move_memInd {s : State} {o : Operand} {v : Word} (w : Width) (a : Word) (len : Nat) (h : readOp o s = .ok v) :
    ∃ t, move w (.memInd a) o len s = .next t ∧ StoreResult s t (w.trunc v) w.bits (Command.store a w v) len := by
  refine ⟨_, by simp only [move, h]; rfl, ?_⟩
  have hf := writeFlags_flagsAre (s.reg .fl) (w.trunc v) w
  rw [trunc_trunc] at hf
  have e2 : Command.store a w v = Command.store a w (w.trunc (w.trunc v)) := by rw [store_trunc, store_trunc]
  rw [e2]
  exact storeResult_of _ len hf

/-! ### Raw results -/

/-- `swap` (R204). -/
theorem exchange_raw (s : State) (r1 r2 : Reg) (len : Nat) :
    ∃ t, exchange r1 r2 len s = .next t ∧ RawResult s t [(r1, s.reg r2), (r2, s.reg r1)] len [] := by
  refine ⟨_, rfl, fun r => ?_, rfl, busKept_of rfl rfl rfl rfl rfl rfl (by simp)⟩
  simp only [reg_advance, reg_setReg, finalValue, List.foldl_cons, List.foldl_nil]
  by_cases h : r = .pc
  · subst h; simp [eq_comm]
  · simp [h, eq_comm]

/-- A push of a readable operand (R285, R289). -/
theorem push_raw {s : State} {o : Operand} {v : Word} (w : Width) (len : Nat) (h : readOp o s = .ok v) :
    ∃ t, push w o len s = .next t ∧
      RawResult s t [(.sp, s.reg .sp - BitVec.ofNat 32 w.bytes)] len
        [Command.store (s.reg .sp - BitVec.ofNat 32 w.bytes) w v] := by
  refine ⟨(s.pushValue w v).advance len, by simp only [push, h]; rfl, fun r => ?_, rfl, busKept_of rfl rfl rfl rfl rfl rfl rfl⟩
  simp only [reg_advance, reg_pushValue, finalValue, List.foldl_cons, List.foldl_nil]
  by_cases h : r = .pc
  · subst h; simp
  · simp [h, eq_comm]

/-- A pop of readable bytes (R285, R286, R289). -/
theorem pop_raw {s : State} {bs : List Byte} (w : Width) (r1 : Reg) (len : Nat)
    (h : Readable s (s.reg .sp).toNat bs) (hl : w.bytes = bs.length) :
    ∃ t, pop w r1 len s = .next t ∧
      RawResult s t [(.sp, s.reg .sp + BitVec.ofNat 32 w.bytes), (r1, leWord bs)] len [] := by
  refine ⟨((s.setReg .sp (s.reg .sp + BitVec.ofNat 32 w.bytes)).setReg r1 (leWord bs)).advance len,
    by simp only [pop, memRead_ok h hl]; rfl, fun r => ?_, rfl, busKept_of rfl rfl rfl rfl rfl rfl (by simp)⟩
  simp only [reg_advance, reg_setReg, finalValue, List.foldl_cons, List.foldl_nil]
  by_cases h : r = .pc
  · subst h; simp [eq_comm]
  · simp [h, eq_comm]

/-- A pop whose bytes cannot all be read (R288). -/
theorem pop_error {s : State} {k : Nat} (w : Width) (r1 : Reg) (len : Nat)
    (h : FirstUnreadable s (s.reg .sp).toNat w.bytes k) :
    pop w r1 len s = .next (pollFault s (.outOfRange ((s.reg .sp).toNat + k))) := by
  simp only [pop, memRead_error h]; rfl

/-- `popx` (R301 to R303). -/
theorem discard_raw {s : State} {o : Operand} {n : Word} (len : Nat) (h : readOp o s = .ok n) :
    ∃ t, discard o len s = .next t ∧ RawResult s t [(.sp, s.reg .sp + n)] len [] := by
  refine ⟨(s.setReg .sp (s.reg .sp + n)).advance len, by simp only [discard, h]; rfl, fun r => ?_, rfl,
    busKept_of rfl rfl rfl rfl rfl rfl (by simp)⟩
  simp only [reg_advance, reg_setReg, finalValue, List.foldl_cons, List.foldl_nil]
  by_cases h : r = .pc
  · subst h; simp
  · simp [h, eq_comm]

/-- An instruction that only advances PC (R314, R316). -/
theorem advance_raw (s : State) (len : Nat) : RawResult s (s.advance len) [] len [] := by
  refine ⟨fun r => ?_, rfl, busKept_of rfl rfl rfl rfl rfl rfl (by simp)⟩
  simp only [reg_advance, finalValue, List.foldl_nil]
  by_cases h : r = .pc
  · subst h; simp
  · simp [h]

/-! ### The twelve pushes and pops -/

/-- The commands of pushes of registers in order, the first below `sp` (R296). -/
def pushCommands (s : State) : List Reg → Word → List Command
  | [], _ => []
  | r :: rs, sp => .writeDword32 (sp - 4) (s.reg r) :: pushCommands s rs (sp - 4)

/-- Pushing registers other than SP in order: SP falls by four for each, the stores are queued, no other register changes. -/
theorem pushRegs_spec (rs : List Reg) (s : State) (h : .sp ∉ rs) :
    pushRegs rs s =
      (s.setReg .sp (s.reg .sp - BitVec.ofNat 32 (4 * rs.length))).enqueue (pushCommands s rs (s.reg .sp)) := by
  induction rs generalizing s with
  | nil =>
    have : s.setReg .sp (s.reg .sp - BitVec.ofNat 32 (4 * ([] : List Reg).length)) = s := by
      have hz : s.reg .sp - BitVec.ofNat 32 (4 * ([] : List Reg).length) = s.reg .sp := by simp
      rw [hz]; rfl
    rw [this]
    simp [pushRegs, pushCommands, State.enqueue]
  | cons r rs ih =>
    simp only [List.mem_cons, not_or] at h
    rw [pushRegs, ih _ h.2]
    have hc : ∀ (l : List Reg) (sp : Word), .sp ∉ l →
        pushCommands (s.pushValue .w32 (s.reg r)) l sp = pushCommands s l sp := by
      intro l
      induction l with
      | nil => intro _ _; rfl
      | cons q l ihl =>
        intro sp hq
        simp only [List.mem_cons, not_or] at hq
        simp only [pushCommands, reg_pushValue, if_neg (Ne.symm hq.1), ihl _ hq.2]
    rw [hc _ _ h.2]
    have e1 : (s.pushValue .w32 (s.reg r)).reg .sp = s.reg .sp - 4 := by simp [reg_pushValue, Width.bytes]
    have e2 : s.reg .sp - 4 - BitVec.ofNat 32 (4 * rs.length) = s.reg .sp - BitVec.ofNat 32 (4 * (r :: rs).length) := by
      rw [show (4 : Word) = BitVec.ofNat 32 4 from rfl]
      apply BitVec.eq_of_toNat_eq
      simp only [BitVec.toNat_sub, BitVec.toNat_ofNat, List.length_cons]
      omega
    rw [e1, e2]
    simp only [State.pushValue, State.memWrite, State.enqueue, State.setReg, pushCommands, RegFile.set, Command.store,
      Width.bytes, List.append_assoc, List.singleton_append]
    rfl

/-- `push.a` (R296). -/
theorem pushAll_raw (s : State) (len : Nat) :
    ∃ t, pushAll len s = .next t ∧
      RawResult s t [(.sp, s.reg .sp - 48)] len (pushCommands s stackedRegs (s.reg .sp)) := by
  have h := pushRegs_spec stackedRegs s (by decide)
  refine ⟨_, rfl, fun r => ?_, by simp [h], busKept_of (by simp [h]) (by simp [h]) (by simp [h]) (by simp [h])
    (by simp [h]) (by simp [h]) (by simp [h])⟩
  have hn : 4 * stackedRegs.length = 48 := rfl
  simp only [h, hn, reg_advance, reg_enqueue, reg_setReg, finalValue, List.foldl_cons, List.foldl_nil]
  by_cases hr : r = .pc
  · subst hr; simp
  · simp [hr, eq_comm]

/-- The slots of `pop.a` are readable: register by register, four bytes each, from ascending addresses that wrap (R300). -/
def SlotsReadable (s : State) : List (Reg × Word) → Word → Prop
  | [], _ => True
  | p :: ps, a => memRead s a.toNat 4 = .ok p.2 ∧ SlotsReadable s ps (a + 4)

theorem readSlots_ok {s : State} {ps : List (Reg × Word)} {a : Word} (h : SlotsReadable s ps a) :
    readSlots s (ps.map Prod.fst) a = .ok ps := by
  induction ps generalizing a with
  | nil => rfl
  | cons p ps ih =>
    obtain ⟨r, v⟩ := p
    simp only [List.map_cons, readSlots, h.1, ih h.2]
    rfl

/-- Raw writes in order (R22). -/
theorem reg_setRegs (vs : List (Reg × Word)) (s : State) (r : Reg) : (setRegs vs s).reg r = finalValue s vs r := by
  induction vs generalizing s with
  | nil => rfl
  | cons p vs ih =>
    obtain ⟨q, v⟩ := p
    rw [setRegs, ih]
    simp only [finalValue, List.foldl_cons, reg_setReg, eq_comm]

theorem setRegs_eq (vs : List (Reg × Word)) (s : State) : setRegs vs s = { s with regs := (setRegs vs s).regs } := by
  induction vs generalizing s with
  | nil => rfl
  | cons p vs ih => exact (ih _).trans rfl

/-- `pop.a` with readable slots (R300). -/
theorem popAll_raw {s : State} {ps : List (Reg × Word)} (len : Nat) (hp : ps.map Prod.fst = stackedRegs.reverse)
    (h : SlotsReadable s ps (s.reg .sp)) :
    ∃ t, popAll len s = .next t ∧ RawResult s t (ps ++ [(.sp, s.reg .sp + 48)]) len [] := by
  refine ⟨((setRegs ps s).setReg .sp (s.reg .sp + 48)).advance len, ?_, fun r => ?_, ?_, ?_⟩
  · simp only [popAll, ← hp, readSlots_ok h]; rfl
  · simp only [reg_advance, reg_setReg, reg_setRegs, finalValue, List.foldl_append, List.foldl_cons, List.foldl_nil]
    by_cases hr : r = .pc
    · subst hr; simp
    · simp [hr, eq_comm]
  · rw [setRegs_eq]; rfl
  · rw [setRegs_eq]; exact busKept_of rfl rfl rfl rfl rfl rfl (by simp)

/-! ### Control transfers -/

/-- A taken transfer with no stack effect (R258, R280). -/
theorem transfer_pc (s : State) (target : Word) : TransferResult s (s.setReg .pc target) target (s.reg .sp) [] := by
  refine ⟨by simp, by simp [reg_setReg], fun q hq => ?_, rfl, busKept_of rfl rfl rfl rfl rfl rfl (by simp)⟩
  simp only [List.mem_cons, List.not_mem_nil, or_false, not_or] at hq
  simp [reg_setReg, hq]

theorem jump_transfer {s : State} {o : Operand} {v : Word} (h : readOp o s = .ok v) :
    ∃ t, jump o s = .next t ∧ TransferResult s t v (s.reg .sp) [] :=
  ⟨s.setReg .pc v, by simp only [jump, h]; rfl, transfer_pc s v⟩

/-- A conditional branch with a readable operand, taken or not (R257 to R259). -/
theorem branch_result {s : State} {o : Operand} {v : Word} (taken : Word → Bool) (len : Nat) (h : readOp o s = .ok v) :
    ∃ t, branch taken o len s = .next t ∧
      TransferResult s t (if taken (s.reg .fl) then v else s.reg .pc + BitVec.ofNat 32 len) (s.reg .sp) [] := by
  cases ht : taken (s.reg .fl) with
  | true => exact ⟨s.setReg .pc v, by simp only [branch, ht, h]; rfl, by simpa using transfer_pc s v⟩
  | false =>
    exact ⟨s.setReg .pc (s.reg .pc + BitVec.ofNat 32 len), by simp only [branch, ht, h]; rfl,
      by simpa using transfer_pc s _⟩

/-- `jsr` with a readable operand (R282, R283). -/
theorem call_transfer {s : State} {o : Operand} {v : Word} (len : Nat) (h : readOp o s = .ok v) :
    ∃ t, call o len s = .next t ∧
      TransferResult s t v (s.reg .sp - 4) [.writeDword32 (s.reg .sp - 4) (s.reg .pc + BitVec.ofNat 32 len)] := by
  refine ⟨(s.pushValue .w32 (s.reg .pc + BitVec.ofNat 32 len)).setReg .pc v, by simp only [call, h]; rfl, ?_⟩
  refine ⟨by simp, by simp [reg_setReg, reg_pushValue, Width.bytes], fun q hq => ?_, rfl,
    busKept_of rfl rfl rfl rfl rfl rfl rfl⟩
  simp only [List.mem_cons, List.not_mem_nil, or_false, not_or] at hq
  simp [reg_setReg, reg_pushValue, hq]

/-- `ret` with a readable slot (R284). -/
theorem return_transfer {s : State} {b0 b1 b2 b3 : Byte} (h : Readable s (s.reg .sp).toNat [b0, b1, b2, b3]) :
    ∃ t, returnFromCall s = .next t ∧ TransferResult s t (b3 ++ b2 ++ b1 ++ b0) (s.reg .sp + 4) [] := by
  refine ⟨(s.setReg .sp (s.reg .sp + 4)).setReg .pc (b3 ++ b2 ++ b1 ++ b0),
    by simp only [returnFromCall, memRead_ok (n := 4) h rfl, leWord_four]; rfl, by simp, by simp [reg_setReg],
    fun q hq => ?_, rfl, busKept_of rfl rfl rfl rfl rfl rfl (by simp)⟩
  simp only [List.mem_cons, List.not_mem_nil, or_false, not_or] at hq
  simp [reg_setReg, hq]

theorem return_error {s : State} {k : Nat} (h : FirstUnreadable s (s.reg .sp).toNat 4 k) :
    returnFromCall s = .next (pollFault s (.outOfRange ((s.reg .sp).toNat + k))) := by
  simp only [returnFromCall, memRead_error h]; rfl

end Sys2Proof.Machine
end

