-- ==== Sys2Proof/Laws/Inversion.lean ====
section
/-! SUPPORT. What an instruction can do, said once for all of them: `exec_does`. Every class of instructions that claims
speak of (Sys2Proof/Safety.lean) is related here to the shape of the result. -/

namespace Sys2Proof.Machine

/-- The next state of an instruction, by the shape of its effect. -/
inductive Does (i : Instr) (s : State) : State → Prop
  /-- A fault of the poll phase, of a kind the instruction can raise, that has its cause. -/
  | faults (f : Fault) : i.mayRaise f = true → f.Caused s → Does i s (pollFault s f)
  /-- A result written to a register by the flag-setting path. -/
  | writes {t : State} (dst : Reg) (v : Word) (n : Nat) (y ov : Bool) : RegisterResult s t dst v n y ov i.length →
      i.destinations = [dst] → i.mayTransfer = false → i.commands = 0 → i.keepsFlags = decide (dst = .pc) →
      i.mnemonic ≠ .cmp → Does i s t
  /-- A store by the flag-setting path. -/
  | stores {t : State} (v : Word) (n : Nat) (c : Command) : StoreResult s t v n c i.length → i.destinations = [] →
      i.mayTransfer = false → i.commands = 1 → i.keepsFlags = false → i.mnemonic ≠ .cmp → Does i s t
  /-- A comparison. -/
  | compares {t : State} (a b : Word) (y ov : Bool) : CompareResult s t a b y ov i.length → i.destinations = [] →
      i.mayTransfer = false → i.commands = 0 → i.keepsFlags = false → i.mnemonic = .cmp → Does i s t
  /-- Raw register writes, of SP or of a destination, and stores. -/
  | raw {t : State} (ws : List (Reg × Word)) (cs : List Command) : RawResult s t ws i.length cs →
      (∀ w ∈ ws, w.1 = .sp ∨ w.1 ∈ i.destinations) → i.mayTransfer = false → cs.length = i.commands →
      i.keepsFlags = true → Does i s t
  /-- A control transfer. -/
  | transfers {t : State} (target sp : Word) (cs : List Command) : TransferResult s t target sp cs →
      i.destinations = [] → i.mayTransfer = true → cs.length = i.commands → i.keepsFlags = true → Does i s t
  /-- `halt`. -/
  | halts : i = .halt → Does i s ((s.setStatus .halt).advance 1)

/-- The instruction answers a next state that `Does` describes. -/
def Answers (i : Instr) (s : State) : Prop := ∃ t, exec i s = .next t ∧ Does i s t

section Shapes
variable {i : Instr} {s : State} {len : Nat}

/-- An operand of a memory kind is read, or raises `OutOfRange` (R144). -/
theorem readOp_memory (o : Operand) (s : State) (ho : o.isMemory = true) :
    (∃ v, readOp o s = .ok v) ∨ ∃ a, readOp o s = .error (.outOfRange a) ∧ (Fault.outOfRange a).Caused s := by
  have key := fun a => memRead_cases s a 4
  cases o with
  | regInd r => exact key _
  | memInd a => exact key _
  | reg r => cases ho
  | imm8 v => cases ho
  | imm16 v => cases ho
  | imm32 v => cases ho

theorem answers_writes {dst : Reg} {v : Word} {n : Nat} {y ov : Bool}
    (h : ∃ t, exec i s = .next t ∧ RegisterResult s t dst v n y ov len) (hl : i.length = len)
    (h1 : i.destinations = [dst]) (h2 : i.mayTransfer = false) (h3 : i.commands = 0)
    (h4 : i.keepsFlags = decide (dst = .pc)) (h5 : i.mnemonic ≠ .cmp) : Answers i s := by
  obtain ⟨t, ht, hr⟩ := h
  exact ⟨t, ht, .writes dst v n y ov (hl ▸ hr) h1 h2 h3 h4 h5⟩

theorem answers_stores {v : Word} {n : Nat} {c : State → Command}
    (h : ∃ t, exec i s = .next t ∧ StoreResult s t v n (c t) len) (hl : i.length = len)
    (h1 : i.destinations = []) (h2 : i.mayTransfer = false) (h3 : i.commands = 1) (h4 : i.keepsFlags = false)
    (h5 : i.mnemonic ≠ .cmp) : Answers i s := by
  obtain ⟨t, ht, hr⟩ := h
  exact ⟨t, ht, .stores v n (c t) (hl ▸ hr) h1 h2 h3 h4 h5⟩

theorem answers_faults {f : Fault} (h : exec i s = .next (pollFault s f)) (hf : i.mayRaise f = true)
    (hc : f.Caused s) : Answers i s :=
  ⟨_, h, .faults f hf hc⟩

/-- A load (R160). -/
theorem answers_load (w : Width) (r : Reg) (o : Operand) (he : exec i s = move w (.reg r) o len s) (hl : i.length = len)
    (ho : o.isMemory = true) (hm : i.readsMemory = true) (h1 : i.destinations = [r]) (h2 : i.mayTransfer = false)
    (h3 : i.commands = 0) (h4 : i.keepsFlags = decide (r = .pc)) (h5 : i.mnemonic ≠ .cmp) : Answers i s := by
  rcases readOp_memory o s ho with ⟨v, hv⟩ | ⟨a, ha, hc⟩
  · exact answers_writes (by rw [he]; exact move_reg w r len hv) hl h1 h2 h3 h4 h5
  · exact answers_faults (he.trans (move_error w _ len ha)) hm hc

/-- A store through a register (R151, R160). -/
theorem answers_store_regInd {v : Word} (w : Width) (r : Reg) (o : Operand)
    (he : exec i s = move w (.regInd r) o len s) (hv : readOp o s = .ok v) (hl : i.length = len)
    (h1 : i.destinations = []) (h2 : i.mayTransfer = false) (h3 : i.commands = 1) (h4 : i.keepsFlags = false)
    (h5 : i.mnemonic ≠ .cmp) : Answers i s :=
  answers_stores (c := fun t => Command.store (storeAddress s t r) w v) (by rw [he]; exact move_regInd w r len hv) hl h1
    h2
    h3 h4 h5

/-- A store at an embedded address (R147, R160). -/
theorem answers_store_memInd {v : Word} (w : Width) (a : Word) (o : Operand)
    (he : exec i s = move w (.memInd a) o len s) (hv : readOp o s = .ok v) (hl : i.length = len)
    (h1 : i.destinations = []) (h2 : i.mayTransfer = false) (h3 : i.commands = 1) (h4 : i.keepsFlags = false)
    (h5 : i.mnemonic ≠ .cmp) : Answers i s :=
  answers_stores (c := fun _ => Command.store a w v) (by rw [he]; exact move_memInd w a len hv) hl h1 h2 h3 h4 h5

/-- A move from memory to memory, its destination `dst` of a memory kind (R163). -/
theorem answers_memory_to_memory (w : Width) (dst o : Operand) (he : exec i s = move w dst o len s)
    (hd : dst.isMemory = true) (ho : o.isMemory = true) (hm : i.readsMemory = true) (hl : i.length = len)
    (h1 : i.destinations = []) (h2 : i.mayTransfer = false) (h3 : i.commands = 1) (h4 : i.keepsFlags = false)
    (h5 : i.mnemonic ≠ .cmp) : Answers i s := by
  rcases readOp_memory o s ho with ⟨v, hv⟩ | ⟨a, ha, hc⟩
  · cases dst with
    | regInd r => exact answers_store_regInd w r o he hv hl h1 h2 h3 h4 h5
    | memInd a => exact answers_store_memInd w a o he hv hl h1 h2 h3 h4 h5
    | reg r => cases hd
    | imm8 v => cases hd
    | imm16 v => cases hd
    | imm32 v => cases hd
  · exact answers_faults (he.trans (move_error w _ len ha)) hm hc

/-- `idiv` and `mod` (R229). -/
theorem answers_divide (f : Word → Word → Word) (r : Reg) (o : Operand) (b : Word)
    (he : exec i s = divide f (.reg r) o len s) (hv : readOp o s = .ok b) (hl : i.length = len)
    (hm : ∀ p, i.mayRaise (.divideByZero p) = true) (h1 : i.destinations = [r]) (h2 : i.mayTransfer = false)
    (h3 : i.commands = 0) (h4 : i.keepsFlags = decide (r = .pc)) (h5 : i.mnemonic ≠ .cmp) : Answers i s := by
  by_cases hb : b = 0
  · subst hb
    exact answers_faults (he.trans (divide_zero f r len hv)) (hm _) ⟨rfl, fun _ e => by cases e⟩
  · exact answers_writes (by rw [he]; exact divide_reg f r len hv hb) hl h1 h2 h3 h4 h5

theorem answers_compare {r : Reg} {b : Word} (o : Operand) (he : exec i s = compare (.reg r) o len s)
    (hv : readOp o s = .ok b) (hl : i.length = len) (h1 : i.destinations = []) (h2 : i.mayTransfer = false)
    (h3 : i.commands = 0) (h4 : i.keepsFlags = false) (h5 : i.mnemonic = .cmp) : Answers i s := by
  obtain ⟨t, ht, a, b', c, d, e⟩ := compare_reg r len hv
  exact ⟨t, he.trans ht, .compares _ _ _ _ ⟨a, hl ▸ b', c, d, e⟩ h1 h2 h3 h4 h5⟩

theorem answers_raw {ws : List (Reg × Word)} {cs : List Command}
    (h : ∃ t, exec i s = .next t ∧ RawResult s t ws len cs) (hl : i.length = len)
    (h1 : ∀ w ∈ ws, w.1 = .sp ∨ w.1 ∈ i.destinations) (h2 : i.mayTransfer = false) (h3 : cs.length = i.commands)
    (h4 : i.keepsFlags = true) : Answers i s := by
  obtain ⟨t, ht, hr⟩ := h
  exact ⟨t, ht, .raw ws cs (hl ▸ hr) h1 h2 h3 h4⟩

theorem answers_pop (w : Width) (r : Reg) (he : exec i s = pop w r len s) (hl : i.length = len)
    (h1 : i.destinations = [r]) (h2 : i.mayTransfer = false) (h3 : i.commands = 0) (h4 : i.keepsFlags = true)
    (hm : i.readsMemory = true) : Answers i s := by
  rcases readable_or_first s (s.reg .sp).toNat w.bytes with ⟨bs, hb, hr⟩ | ⟨k, hk⟩
  · refine answers_raw (by rw [he]; exact pop_raw w r len hr hb.symm) hl (fun x hx => ?_) h2 (by rw [h3]; rfl) h4
    simp only [List.mem_cons, List.not_mem_nil, or_false] at hx
    rcases hx with rfl | rfl
    · exact .inl rfl
    · exact .inr (by rw [h1]; exact List.mem_singleton.2 rfl)
  · exact answers_faults (he.trans (pop_error w r len hk)) hm (Fault.caused_outOfRange hk.2.2)

theorem answers_transfers {target sp : Word} {cs : List Command}
    (h : ∃ t, exec i s = .next t ∧ TransferResult s t target sp cs) (h1 : i.destinations = [])
    (h2 : i.mayTransfer = true) (h3 : cs.length = i.commands) (h4 : i.keepsFlags = true) : Answers i s := by
  obtain ⟨t, ht, hr⟩ := h
  exact ⟨t, ht, .transfers target sp cs hr h1 h2 h3 h4⟩

theorem answers_branch {v : Word} (taken : Word → Bool) (o : Operand) (he : exec i s = branch taken o len s)
    (hv : readOp o s = .ok v) (h1 : i.destinations = []) (h2 : i.mayTransfer = true) (h3 : i.commands = 0)
    (h4 : i.keepsFlags = true) : Answers i s :=
  answers_transfers (by rw [he]; exact branch_result taken len hv) h1 h2 (by rw [h3]; rfl) h4

theorem answers_extension {op : Byte} (he : exec i s = extension i op len s) (hx : s.ext = none)
    (hm : i.mayRaise (.extensionNotImplemented op) = true) : Answers i s := by
  refine answers_faults (he.trans ?_) hm ⟨rfl, fun _ e => by cases e⟩
  simp only [extension, hx]; rfl

end Shapes

/-- The slots of `pop.a` are read one by one, or one raises `OutOfRange` (R300). -/
theorem readSlots_cases (s : State) (rs : List Reg) (a : Word) :
    (∃ ps, readSlots s rs a = .ok ps ∧ ps.map Prod.fst = rs ∧ SlotsReadable s ps a) ∨
      ∃ b, readSlots s rs a = .error (.outOfRange b) ∧ (Fault.outOfRange b).Caused s := by
  induction rs generalizing a with
  | nil => exact .inl ⟨[], rfl, rfl, trivial⟩
  | cons r rs ih =>
    rcases memRead_cases s a.toNat 4 with ⟨v, hm⟩ | ⟨b, hb, hc⟩
    · rcases ih (a + 4) with ⟨ps, h1, h2, h3⟩ | ⟨b, hb, hc⟩
      · exact .inl ⟨(r, v) :: ps, by simp only [readSlots, hm, h1]; rfl, by simp [h2], hm, h3⟩
      · exact .inr ⟨b, by simp only [readSlots, hm, hb]; rfl, hc⟩
    · exact .inr ⟨b, by simp only [readSlots, hb]; rfl, hc⟩

theorem answers_popA (s : State) : Answers .popA s := by
  rcases readSlots_cases s stackedRegs.reverse (s.reg .sp) with ⟨ps, _, h2, h3⟩ | ⟨b, hb, hc⟩
  · refine answers_raw (popAll_raw 1 h2 h3) rfl (fun w hw => ?_) rfl rfl rfl
    rcases List.mem_append.1 hw with h | h
    · right
      have : w.1 ∈ ps.map Prod.fst := List.mem_map_of_mem h
      rw [h2, List.mem_reverse] at this
      exact this
    · left
      rw [List.mem_singleton] at h
      rw [h]
  · refine answers_faults (f := .outOfRange b) ?_ rfl hc
    show popAll 1 s = _
    simp only [popAll, hb]; rfl

theorem writes_sp {rs : List Reg} (v : Word) : ∀ w ∈ [(Reg.sp, v)], w.1 = .sp ∨ w.1 ∈ rs := fun _ hw =>
  .inl (by rw [List.mem_singleton.1 hw])

theorem writes_pair (r1 r2 : Reg) (v1 v2 : Word) : ∀ w ∈ [(r1, v1), (r2, v2)], w.1 = .sp ∨ w.1 ∈ [r1, r2] := fun w hw =>
  by
  simp only [List.mem_cons, List.not_mem_nil, or_false] at hw
  rcases hw with rfl | rfl
  · exact .inr (List.mem_cons_self ..)
  · exact .inr (List.mem_cons_of_mem _ (List.mem_cons_self ..))

theorem answers_ret (s : State) : Answers .ret s := by
  rcases readable_or_first s (s.reg .sp).toNat 4 with ⟨bs, hl, hr⟩ | ⟨k, hk⟩
  · obtain ⟨b0, b1, b2, b3, rfl⟩ : ∃ b0 b1 b2 b3, bs = [b0, b1, b2, b3] := by
      match bs, hl with
      | [b0, b1, b2, b3], _ => exact ⟨b0, b1, b2, b3, rfl⟩
    exact answers_transfers (return_transfer hr) rfl rfl rfl rfl
  · exact answers_faults (return_error hk) rfl (Fault.caused_outOfRange hk.2.2)

theorem answers_movRR (r1 r2 : Reg) (s : State) : Answers (.movRR r1 r2) s :=
  answers_writes (move_reg .w32 r1 2 (readOp_reg s r2)) rfl rfl rfl rfl (by cases r1 <;> rfl) (fun h =>
    Mnemonic.noConfusion h)

theorem answers_movRV8 (r1 : Reg) (imm : BitVec 8) (s : State) : Answers (.movRV8 r1 imm) s :=
  answers_writes (move_reg .w32 r1 3 (readOp_imm8 s imm)) rfl rfl rfl rfl (by cases r1 <;> rfl) (fun h =>
    Mnemonic.noConfusion h)

theorem answers_movRV16 (r1 : Reg) (imm : BitVec 16) (s : State) : Answers (.movRV16 r1 imm) s :=
  answers_writes (move_reg .w32 r1 4 (readOp_imm16 s imm)) rfl rfl rfl rfl (by cases r1 <;> rfl) (fun h =>
    Mnemonic.noConfusion h)

theorem answers_movRV32 (r1 : Reg) (imm : Word) (s : State) : Answers (.movRV32 r1 imm) s :=
  answers_writes (move_reg .w32 r1 6 (readOp_imm32 s imm)) rfl rfl rfl rfl (by cases r1 <;> rfl) (fun h =>
    Mnemonic.noConfusion h)

theorem answers_movbRI (r1 r2 : Reg) (s : State) : Answers (.movbRI r1 r2) s :=
  answers_load .w8 r1 (.regInd r2) (len := 2) rfl rfl rfl rfl rfl rfl rfl (by cases r1 <;> rfl) (fun h =>
    Mnemonic.noConfusion h)

theorem answers_movbRM (r1 : Reg) (addr : Word) (s : State) : Answers (.movbRM r1 addr) s :=
  answers_load .w8 r1 (.memInd addr) (len := 6) rfl rfl rfl rfl rfl rfl rfl (by cases r1 <;> rfl) (fun h =>
    Mnemonic.noConfusion h)

theorem answers_movwRI (r1 r2 : Reg) (s : State) : Answers (.movwRI r1 r2) s :=
  answers_load .w16 r1 (.regInd r2) (len := 2) rfl rfl rfl rfl rfl rfl rfl (by cases r1 <;> rfl) (fun h =>
    Mnemonic.noConfusion h)

theorem answers_movwRM (r1 : Reg) (addr : Word) (s : State) : Answers (.movwRM r1 addr) s :=
  answers_load .w16 r1 (.memInd addr) (len := 6) rfl rfl rfl rfl rfl rfl rfl (by cases r1 <;> rfl) (fun h =>
    Mnemonic.noConfusion h)

theorem answers_movdRI (r1 r2 : Reg) (s : State) : Answers (.movdRI r1 r2) s :=
  answers_load .w32 r1 (.regInd r2) (len := 2) rfl rfl rfl rfl rfl rfl rfl (by cases r1 <;> rfl) (fun h =>
    Mnemonic.noConfusion h)

theorem answers_movdRM (r1 : Reg) (addr : Word) (s : State) : Answers (.movdRM r1 addr) s :=
  answers_load .w32 r1 (.memInd addr) (len := 6) rfl rfl rfl rfl rfl rfl rfl (by cases r1 <;> rfl) (fun h =>
    Mnemonic.noConfusion h)

theorem answers_movbIR (r1 r2 : Reg) (s : State) : Answers (.movbIR r1 r2) s :=
  answers_store_regInd .w8 r1 _ (len := 2) rfl (readOp_reg s r2) rfl rfl rfl rfl rfl (fun h => Mnemonic.noConfusion h)

theorem answers_movbIV8 (r1 : Reg) (imm : BitVec 8) (s : State) : Answers (.movbIV8 r1 imm) s :=
  answers_store_regInd .w8 r1 _ (len := 3) rfl (readOp_imm8 s imm) rfl rfl rfl rfl rfl (fun h => Mnemonic.noConfusion h)

theorem answers_movbII (r1 r2 : Reg) (s : State) : Answers (.movbII r1 r2) s :=
  answers_memory_to_memory .w8 (.regInd r1) (.regInd r2) (len := 2) rfl rfl rfl rfl rfl rfl rfl rfl rfl (fun h =>
    Mnemonic.noConfusion h)

theorem answers_movbIM (r1 : Reg) (addr : Word) (s : State) : Answers (.movbIM r1 addr) s :=
  answers_memory_to_memory .w8 (.regInd r1) (.memInd addr) (len := 6) rfl rfl rfl rfl rfl rfl rfl rfl rfl (fun h =>
    Mnemonic.noConfusion h)

theorem answers_movwIR (r1 r2 : Reg) (s : State) : Answers (.movwIR r1 r2) s :=
  answers_store_regInd .w16 r1 _ (len := 2) rfl (readOp_reg s r2) rfl rfl rfl rfl rfl (fun h => Mnemonic.noConfusion h)

theorem answers_movwIV16 (r1 : Reg) (imm : BitVec 16) (s : State) : Answers (.movwIV16 r1 imm) s :=
  answers_store_regInd .w16 r1 _ (len := 4) rfl (readOp_imm16 s imm) rfl rfl rfl rfl rfl (fun h => Mnemonic.noConfusion
    h)

theorem answers_movwII (r1 r2 : Reg) (s : State) : Answers (.movwII r1 r2) s :=
  answers_memory_to_memory .w16 (.regInd r1) (.regInd r2) (len := 2) rfl rfl rfl rfl rfl rfl rfl rfl rfl (fun h =>
    Mnemonic.noConfusion h)

theorem answers_movwIM (r1 : Reg) (addr : Word) (s : State) : Answers (.movwIM r1 addr) s :=
  answers_memory_to_memory .w16 (.regInd r1) (.memInd addr) (len := 6) rfl rfl rfl rfl rfl rfl rfl rfl rfl (fun h =>
    Mnemonic.noConfusion h)

theorem answers_movdIR (r1 r2 : Reg) (s : State) : Answers (.movdIR r1 r2) s :=
  answers_store_regInd .w32 r1 _ (len := 2) rfl (readOp_reg s r2) rfl rfl rfl rfl rfl (fun h => Mnemonic.noConfusion h)

theorem answers_movdIV32 (r1 : Reg) (imm : Word) (s : State) : Answers (.movdIV32 r1 imm) s :=
  answers_store_regInd .w32 r1 _ (len := 6) rfl (readOp_imm32 s imm) rfl rfl rfl rfl rfl (fun h => Mnemonic.noConfusion
    h)

theorem answers_movdII (r1 r2 : Reg) (s : State) : Answers (.movdII r1 r2) s :=
  answers_memory_to_memory .w32 (.regInd r1) (.regInd r2) (len := 2) rfl rfl rfl rfl rfl rfl rfl rfl rfl (fun h =>
    Mnemonic.noConfusion h)

theorem answers_movdIM (r1 : Reg) (addr : Word) (s : State) : Answers (.movdIM r1 addr) s :=
  answers_memory_to_memory .w32 (.regInd r1) (.memInd addr) (len := 6) rfl rfl rfl rfl rfl rfl rfl rfl rfl (fun h =>
    Mnemonic.noConfusion h)

theorem answers_movbMR (addr : Word) (r2 : Reg) (s : State) : Answers (.movbMR addr r2) s :=
  answers_store_memInd .w8 addr _ (len := 6) rfl (readOp_reg s r2) rfl rfl rfl rfl rfl (fun h => Mnemonic.noConfusion h)

theorem answers_movbMV8 (addr : Word) (imm : BitVec 8) (s : State) : Answers (.movbMV8 addr imm) s :=
  answers_store_memInd .w8 addr _ (len := 6) rfl (readOp_imm8 s imm) rfl rfl rfl rfl rfl (fun h => Mnemonic.noConfusion
    h)

theorem answers_movbMI (addr : Word) (r2 : Reg) (s : State) : Answers (.movbMI addr r2) s :=
  answers_memory_to_memory .w8 (.memInd addr) (.regInd r2) (len := 6) rfl rfl rfl rfl rfl rfl rfl rfl rfl (fun h =>
    Mnemonic.noConfusion h)

theorem answers_movbMM (addr1 addr2 : Word) (s : State) : Answers (.movbMM addr1 addr2) s :=
  answers_memory_to_memory .w8 (.memInd addr1) (.memInd addr2) (len := 9) rfl rfl rfl rfl rfl rfl rfl rfl rfl (fun h =>
    Mnemonic.noConfusion h)

theorem answers_movwMR (addr : Word) (r2 : Reg) (s : State) : Answers (.movwMR addr r2) s :=
  answers_store_memInd .w16 addr _ (len := 6) rfl (readOp_reg s r2) rfl rfl rfl rfl rfl (fun h => Mnemonic.noConfusion
    h)

theorem answers_movwMV16 (addr : Word) (imm : BitVec 16) (s : State) : Answers (.movwMV16 addr imm) s :=
  answers_store_memInd .w16 addr _ (len := 7) rfl (readOp_imm16 s imm) rfl rfl rfl rfl rfl (fun h =>
    Mnemonic.noConfusion h)

theorem answers_movwMI (addr : Word) (r2 : Reg) (s : State) : Answers (.movwMI addr r2) s :=
  answers_memory_to_memory .w16 (.memInd addr) (.regInd r2) (len := 6) rfl rfl rfl rfl rfl rfl rfl rfl rfl (fun h =>
    Mnemonic.noConfusion h)

theorem answers_movwMM (addr1 addr2 : Word) (s : State) : Answers (.movwMM addr1 addr2) s :=
  answers_memory_to_memory .w16 (.memInd addr1) (.memInd addr2) (len := 9) rfl rfl rfl rfl rfl rfl rfl rfl rfl (fun h =>
    Mnemonic.noConfusion h)

theorem answers_movdMR (addr : Word) (r2 : Reg) (s : State) : Answers (.movdMR addr r2) s :=
  answers_store_memInd .w32 addr _ (len := 6) rfl (readOp_reg s r2) rfl rfl rfl rfl rfl (fun h => Mnemonic.noConfusion
    h)

theorem answers_movdMV32 (addr imm : Word) (s : State) : Answers (.movdMV32 addr imm) s :=
  answers_store_memInd .w32 addr _ (len := 9) rfl (readOp_imm32 s imm) rfl rfl rfl rfl rfl (fun h =>
    Mnemonic.noConfusion h)

theorem answers_movdMI (addr : Word) (r2 : Reg) (s : State) : Answers (.movdMI addr r2) s :=
  answers_memory_to_memory .w32 (.memInd addr) (.regInd r2) (len := 6) rfl rfl rfl rfl rfl rfl rfl rfl rfl (fun h =>
    Mnemonic.noConfusion h)

theorem answers_movdMM (addr1 addr2 : Word) (s : State) : Answers (.movdMM addr1 addr2) s :=
  answers_memory_to_memory .w32 (.memInd addr1) (.memInd addr2) (len := 9) rfl rfl rfl rfl rfl rfl rfl rfl rfl (fun h =>
    Mnemonic.noConfusion h)

theorem answers_orRR (r1 r2 : Reg) (s : State) : Answers (.orRR r1 r2) s :=
  answers_writes (binary_reg _ r1 2 (readOp_reg s r2)) rfl rfl rfl rfl (by cases r1 <;> rfl) (fun h =>
    Mnemonic.noConfusion h)

theorem answers_orRV8 (r1 : Reg) (imm : BitVec 8) (s : State) : Answers (.orRV8 r1 imm) s :=
  answers_writes (binary_reg _ r1 3 (readOp_imm8 s imm)) rfl rfl rfl rfl (by cases r1 <;> rfl) (fun h =>
    Mnemonic.noConfusion h)

theorem answers_orRV16 (r1 : Reg) (imm : BitVec 16) (s : State) : Answers (.orRV16 r1 imm) s :=
  answers_writes (binary_reg _ r1 4 (readOp_imm16 s imm)) rfl rfl rfl rfl (by cases r1 <;> rfl) (fun h =>
    Mnemonic.noConfusion h)

theorem answers_orRV32 (r1 : Reg) (imm : Word) (s : State) : Answers (.orRV32 r1 imm) s :=
  answers_writes (binary_reg _ r1 6 (readOp_imm32 s imm)) rfl rfl rfl rfl (by cases r1 <;> rfl) (fun h =>
    Mnemonic.noConfusion h)

theorem answers_xorRR (r1 r2 : Reg) (s : State) : Answers (.xorRR r1 r2) s :=
  answers_writes (binary_reg _ r1 2 (readOp_reg s r2)) rfl rfl rfl rfl (by cases r1 <;> rfl) (fun h =>
    Mnemonic.noConfusion h)

theorem answers_xorRV8 (r1 : Reg) (imm : BitVec 8) (s : State) : Answers (.xorRV8 r1 imm) s :=
  answers_writes (binary_reg _ r1 3 (readOp_imm8 s imm)) rfl rfl rfl rfl (by cases r1 <;> rfl) (fun h =>
    Mnemonic.noConfusion h)

theorem answers_xorRV16 (r1 : Reg) (imm : BitVec 16) (s : State) : Answers (.xorRV16 r1 imm) s :=
  answers_writes (binary_reg _ r1 4 (readOp_imm16 s imm)) rfl rfl rfl rfl (by cases r1 <;> rfl) (fun h =>
    Mnemonic.noConfusion h)

theorem answers_xorRV32 (r1 : Reg) (imm : Word) (s : State) : Answers (.xorRV32 r1 imm) s :=
  answers_writes (binary_reg _ r1 6 (readOp_imm32 s imm)) rfl rfl rfl rfl (by cases r1 <;> rfl) (fun h =>
    Mnemonic.noConfusion h)

theorem answers_andRR (r1 r2 : Reg) (s : State) : Answers (.andRR r1 r2) s :=
  answers_writes (binary_reg _ r1 2 (readOp_reg s r2)) rfl rfl rfl rfl (by cases r1 <;> rfl) (fun h =>
    Mnemonic.noConfusion h)

theorem answers_andRV8 (r1 : Reg) (imm : BitVec 8) (s : State) : Answers (.andRV8 r1 imm) s :=
  answers_writes (binary_reg _ r1 3 (readOp_imm8 s imm)) rfl rfl rfl rfl (by cases r1 <;> rfl) (fun h =>
    Mnemonic.noConfusion h)

theorem answers_andRV16 (r1 : Reg) (imm : BitVec 16) (s : State) : Answers (.andRV16 r1 imm) s :=
  answers_writes (binary_reg _ r1 4 (readOp_imm16 s imm)) rfl rfl rfl rfl (by cases r1 <;> rfl) (fun h =>
    Mnemonic.noConfusion h)

theorem answers_andRV32 (r1 : Reg) (imm : Word) (s : State) : Answers (.andRV32 r1 imm) s :=
  answers_writes (binary_reg _ r1 6 (readOp_imm32 s imm)) rfl rfl rfl rfl (by cases r1 <;> rfl) (fun h =>
    Mnemonic.noConfusion h)

theorem answers_shlRR (r1 r2 : Reg) (s : State) : Answers (.shlRR r1 r2) s :=
  answers_writes (binary_reg _ r1 2 (readOp_reg s r2)) rfl rfl rfl rfl (by cases r1 <;> rfl) (fun h =>
    Mnemonic.noConfusion h)

theorem answers_shlRV8 (r1 : Reg) (imm : BitVec 8) (s : State) : Answers (.shlRV8 r1 imm) s :=
  answers_writes (binary_reg _ r1 3 (readOp_imm8 s imm)) rfl rfl rfl rfl (by cases r1 <;> rfl) (fun h =>
    Mnemonic.noConfusion h)

theorem answers_shrRR (r1 r2 : Reg) (s : State) : Answers (.shrRR r1 r2) s :=
  answers_writes (binary_reg _ r1 2 (readOp_reg s r2)) rfl rfl rfl rfl (by cases r1 <;> rfl) (fun h =>
    Mnemonic.noConfusion h)

theorem answers_shrRV8 (r1 : Reg) (imm : BitVec 8) (s : State) : Answers (.shrRV8 r1 imm) s :=
  answers_writes (binary_reg _ r1 3 (readOp_imm8 s imm)) rfl rfl rfl rfl (by cases r1 <;> rfl) (fun h =>
    Mnemonic.noConfusion h)

theorem answers_notR (r1 : Reg) (s : State) : Answers (.notR r1) s :=
  answers_writes (unary_reg s _ r1 2) rfl rfl rfl rfl (by cases r1 <;> rfl) (fun h => Mnemonic.noConfusion h)

theorem answers_addRR (r1 r2 : Reg) (s : State) : Answers (.addRR r1 r2) s :=
  answers_writes (arith_reg _ r1 2 (readOp_reg s r2)) rfl rfl rfl rfl (by cases r1 <;> rfl) (fun h =>
    Mnemonic.noConfusion h)

theorem answers_addRV8 (r1 : Reg) (imm : BitVec 8) (s : State) : Answers (.addRV8 r1 imm) s :=
  answers_writes (arith_reg _ r1 3 (readOp_imm8 s imm)) rfl rfl rfl rfl (by cases r1 <;> rfl) (fun h =>
    Mnemonic.noConfusion h)

theorem answers_addRV16 (r1 : Reg) (imm : BitVec 16) (s : State) : Answers (.addRV16 r1 imm) s :=
  answers_writes (arith_reg _ r1 4 (readOp_imm16 s imm)) rfl rfl rfl rfl (by cases r1 <;> rfl) (fun h =>
    Mnemonic.noConfusion h)

theorem answers_addRV32 (r1 : Reg) (imm : Word) (s : State) : Answers (.addRV32 r1 imm) s :=
  answers_writes (arith_reg _ r1 6 (readOp_imm32 s imm)) rfl rfl rfl rfl (by cases r1 <;> rfl) (fun h =>
    Mnemonic.noConfusion h)

theorem answers_subRR (r1 r2 : Reg) (s : State) : Answers (.subRR r1 r2) s :=
  answers_writes (arith_reg _ r1 2 (readOp_reg s r2)) rfl rfl rfl rfl (by cases r1 <;> rfl) (fun h =>
    Mnemonic.noConfusion h)

theorem answers_subRV8 (r1 : Reg) (imm : BitVec 8) (s : State) : Answers (.subRV8 r1 imm) s :=
  answers_writes (arith_reg _ r1 3 (readOp_imm8 s imm)) rfl rfl rfl rfl (by cases r1 <;> rfl) (fun h =>
    Mnemonic.noConfusion h)

theorem answers_subRV16 (r1 : Reg) (imm : BitVec 16) (s : State) : Answers (.subRV16 r1 imm) s :=
  answers_writes (arith_reg _ r1 4 (readOp_imm16 s imm)) rfl rfl rfl rfl (by cases r1 <;> rfl) (fun h =>
    Mnemonic.noConfusion h)

theorem answers_subRV32 (r1 : Reg) (imm : Word) (s : State) : Answers (.subRV32 r1 imm) s :=
  answers_writes (arith_reg _ r1 6 (readOp_imm32 s imm)) rfl rfl rfl rfl (by cases r1 <;> rfl) (fun h =>
    Mnemonic.noConfusion h)

theorem answers_cmpRR (r1 r2 : Reg) (s : State) : Answers (.cmpRR r1 r2) s :=
  answers_compare (r := r1) _ (len := 2) rfl (readOp_reg s r2) rfl rfl rfl rfl (by cases r1 <;> rfl) rfl

theorem answers_cmpRV8 (r1 : Reg) (imm : BitVec 8) (s : State) : Answers (.cmpRV8 r1 imm) s :=
  answers_compare (r := r1) _ (len := 3) rfl (readOp_imm8 s imm) rfl rfl rfl rfl (by cases r1 <;> rfl) rfl

theorem answers_cmpRV16 (r1 : Reg) (imm : BitVec 16) (s : State) : Answers (.cmpRV16 r1 imm) s :=
  answers_compare (r := r1) _ (len := 4) rfl (readOp_imm16 s imm) rfl rfl rfl rfl (by cases r1 <;> rfl) rfl

theorem answers_cmpRV32 (r1 : Reg) (imm : Word) (s : State) : Answers (.cmpRV32 r1 imm) s :=
  answers_compare (r := r1) _ (len := 6) rfl (readOp_imm32 s imm) rfl rfl rfl rfl (by cases r1 <;> rfl) rfl

theorem answers_mulRR (r1 r2 : Reg) (s : State) : Answers (.mulRR r1 r2) s :=
  answers_writes (arith_reg _ r1 2 (readOp_reg s r2)) rfl rfl rfl rfl (by cases r1 <;> rfl) (fun h =>
    Mnemonic.noConfusion h)

theorem answers_mulRV8 (r1 : Reg) (imm : BitVec 8) (s : State) : Answers (.mulRV8 r1 imm) s :=
  answers_writes (arith_reg _ r1 3 (readOp_imm8 s imm)) rfl rfl rfl rfl (by cases r1 <;> rfl) (fun h =>
    Mnemonic.noConfusion h)

theorem answers_mulRV16 (r1 : Reg) (imm : BitVec 16) (s : State) : Answers (.mulRV16 r1 imm) s :=
  answers_writes (arith_reg _ r1 4 (readOp_imm16 s imm)) rfl rfl rfl rfl (by cases r1 <;> rfl) (fun h =>
    Mnemonic.noConfusion h)

theorem answers_mulRV32 (r1 : Reg) (imm : Word) (s : State) : Answers (.mulRV32 r1 imm) s :=
  answers_writes (arith_reg _ r1 6 (readOp_imm32 s imm)) rfl rfl rfl rfl (by cases r1 <;> rfl) (fun h =>
    Mnemonic.noConfusion h)

theorem answers_idivRR (r1 r2 : Reg) (s : State) : Answers (.idivRR r1 r2) s :=
  answers_divide _ r1 _ _ (len := 2) rfl (readOp_reg s r2) rfl (fun _ => rfl) rfl rfl rfl (by cases r1 <;> rfl) (fun h
    => Mnemonic.noConfusion h)

theorem answers_idivRV8 (r1 : Reg) (imm : BitVec 8) (s : State) : Answers (.idivRV8 r1 imm) s :=
  answers_divide _ r1 _ _ (len := 3) rfl (readOp_imm8 s imm) rfl (fun _ => rfl) rfl rfl rfl (by cases r1 <;> rfl) (fun h
    => Mnemonic.noConfusion h)

theorem answers_idivRV16 (r1 : Reg) (imm : BitVec 16) (s : State) : Answers (.idivRV16 r1 imm) s :=
  answers_divide _ r1 _ _ (len := 4) rfl (readOp_imm16 s imm) rfl (fun _ => rfl) rfl rfl rfl (by cases r1 <;> rfl) (fun
    h => Mnemonic.noConfusion h)

theorem answers_idivRV32 (r1 : Reg) (imm : Word) (s : State) : Answers (.idivRV32 r1 imm) s :=
  answers_divide _ r1 _ _ (len := 6) rfl (readOp_imm32 s imm) rfl (fun _ => rfl) rfl rfl rfl (by cases r1 <;> rfl) (fun
    h => Mnemonic.noConfusion h)

theorem answers_modRR (r1 r2 : Reg) (s : State) : Answers (.modRR r1 r2) s :=
  answers_divide _ r1 _ _ (len := 2) rfl (readOp_reg s r2) rfl (fun _ => rfl) rfl rfl rfl (by cases r1 <;> rfl) (fun h
    => Mnemonic.noConfusion h)

theorem answers_modRV8 (r1 : Reg) (imm : BitVec 8) (s : State) : Answers (.modRV8 r1 imm) s :=
  answers_divide _ r1 _ _ (len := 3) rfl (readOp_imm8 s imm) rfl (fun _ => rfl) rfl rfl rfl (by cases r1 <;> rfl) (fun h
    => Mnemonic.noConfusion h)

theorem answers_modRV16 (r1 : Reg) (imm : BitVec 16) (s : State) : Answers (.modRV16 r1 imm) s :=
  answers_divide _ r1 _ _ (len := 4) rfl (readOp_imm16 s imm) rfl (fun _ => rfl) rfl rfl rfl (by cases r1 <;> rfl) (fun
    h => Mnemonic.noConfusion h)

theorem answers_modRV32 (r1 : Reg) (imm : Word) (s : State) : Answers (.modRV32 r1 imm) s :=
  answers_divide _ r1 _ _ (len := 6) rfl (readOp_imm32 s imm) rfl (fun _ => rfl) rfl rfl rfl (by cases r1 <;> rfl) (fun
    h => Mnemonic.noConfusion h)

theorem answers_incR (r1 : Reg) (s : State) : Answers (.incR r1) s :=
  answers_writes (arith_reg _ r1 2 (readOp_imm32 s 1#32)) rfl rfl rfl rfl (by cases r1 <;> rfl) (fun h =>
    Mnemonic.noConfusion h)

theorem answers_decR (r1 : Reg) (s : State) : Answers (.decR r1) s :=
  answers_writes (arith_reg _ r1 2 (readOp_imm32 s 1#32)) rfl rfl rfl rfl (by cases r1 <;> rfl) (fun h =>
    Mnemonic.noConfusion h)

theorem answers_bzR (r1 : Reg) (s : State) : Answers (.bzR r1) s :=
  answers_branch (fun fl => getFlag fl .z) _ (len := 2) rfl (readOp_reg s r1) rfl rfl rfl rfl

theorem answers_bzV32 (imm : Word) (s : State) : Answers (.bzV32 imm) s :=
  answers_branch (fun fl => getFlag fl .z) _ (len := 5) rfl (readOp_imm32 s imm) rfl rfl rfl rfl

theorem answers_bnzR (r1 : Reg) (s : State) : Answers (.bnzR r1) s :=
  answers_branch (fun fl => !getFlag fl .z) _ (len := 2) rfl (readOp_reg s r1) rfl rfl rfl rfl

theorem answers_bnzV32 (imm : Word) (s : State) : Answers (.bnzV32 imm) s :=
  answers_branch (fun fl => !getFlag fl .z) _ (len := 5) rfl (readOp_imm32 s imm) rfl rfl rfl rfl

theorem answers_bnegR (r1 : Reg) (s : State) : Answers (.bnegR r1) s :=
  answers_branch (fun fl => getFlag fl .s) _ (len := 2) rfl (readOp_reg s r1) rfl rfl rfl rfl

theorem answers_bnegV32 (imm : Word) (s : State) : Answers (.bnegV32 imm) s :=
  answers_branch (fun fl => getFlag fl .s) _ (len := 5) rfl (readOp_imm32 s imm) rfl rfl rfl rfl

theorem answers_bposR (r1 : Reg) (s : State) : Answers (.bposR r1) s :=
  answers_branch (fun fl => !getFlag fl .s) _ (len := 2) rfl (readOp_reg s r1) rfl rfl rfl rfl

theorem answers_bposV32 (imm : Word) (s : State) : Answers (.bposV32 imm) s :=
  answers_branch (fun fl => !getFlag fl .s) _ (len := 5) rfl (readOp_imm32 s imm) rfl rfl rfl rfl

theorem answers_bgtR (r1 : Reg) (s : State) : Answers (.bgtR r1) s :=
  answers_branch (fun fl => getFlag fl .gt) _ (len := 2) rfl (readOp_reg s r1) rfl rfl rfl rfl

theorem answers_bgtV32 (imm : Word) (s : State) : Answers (.bgtV32 imm) s :=
  answers_branch (fun fl => getFlag fl .gt) _ (len := 5) rfl (readOp_imm32 s imm) rfl rfl rfl rfl

theorem answers_bgteR (r1 : Reg) (s : State) : Answers (.bgteR r1) s :=
  answers_branch (fun fl => getFlag fl .gt || getFlag fl .z) _ (len := 2) rfl (readOp_reg s r1) rfl rfl rfl rfl

theorem answers_bgteV32 (imm : Word) (s : State) : Answers (.bgteV32 imm) s :=
  answers_branch (fun fl => getFlag fl .gt || getFlag fl .z) _ (len := 5) rfl (readOp_imm32 s imm) rfl rfl rfl rfl

theorem answers_bltR (r1 : Reg) (s : State) : Answers (.bltR r1) s :=
  answers_branch (fun fl => getFlag fl .lt) _ (len := 2) rfl (readOp_reg s r1) rfl rfl rfl rfl

theorem answers_bltV32 (imm : Word) (s : State) : Answers (.bltV32 imm) s :=
  answers_branch (fun fl => getFlag fl .lt) _ (len := 5) rfl (readOp_imm32 s imm) rfl rfl rfl rfl

theorem answers_blteR (r1 : Reg) (s : State) : Answers (.blteR r1) s :=
  answers_branch (fun fl => getFlag fl .lt || getFlag fl .z) _ (len := 2) rfl (readOp_reg s r1) rfl rfl rfl rfl

theorem answers_blteV32 (imm : Word) (s : State) : Answers (.blteV32 imm) s :=
  answers_branch (fun fl => getFlag fl .lt || getFlag fl .z) _ (len := 5) rfl (readOp_imm32 s imm) rfl rfl rfl rfl

theorem answers_bvR (r1 : Reg) (s : State) : Answers (.bvR r1) s :=
  answers_branch (fun fl => getFlag fl .v) _ (len := 2) rfl (readOp_reg s r1) rfl rfl rfl rfl

theorem answers_bvV32 (imm : Word) (s : State) : Answers (.bvV32 imm) s :=
  answers_branch (fun fl => getFlag fl .v) _ (len := 5) rfl (readOp_imm32 s imm) rfl rfl rfl rfl

theorem answers_bnvR (r1 : Reg) (s : State) : Answers (.bnvR r1) s :=
  answers_branch (fun fl => !getFlag fl .v) _ (len := 2) rfl (readOp_reg s r1) rfl rfl rfl rfl

theorem answers_bnvV32 (imm : Word) (s : State) : Answers (.bnvV32 imm) s :=
  answers_branch (fun fl => !getFlag fl .v) _ (len := 5) rfl (readOp_imm32 s imm) rfl rfl rfl rfl

theorem answers_jmpR (r1 : Reg) (s : State) : Answers (.jmpR r1) s :=
  answers_transfers (jump_transfer (readOp_reg s r1)) rfl rfl rfl rfl

theorem answers_jmpV32 (imm : Word) (s : State) : Answers (.jmpV32 imm) s :=
  answers_transfers (jump_transfer (readOp_imm32 s imm)) rfl rfl rfl rfl

theorem answers_jsrR (r1 : Reg) (s : State) : Answers (.jsrR r1) s :=
  answers_transfers (call_transfer 2 (readOp_reg s r1)) rfl rfl rfl rfl

theorem answers_jsrV32 (imm : Word) (s : State) : Answers (.jsrV32 imm) s :=
  answers_transfers (call_transfer 5 (readOp_imm32 s imm)) rfl rfl rfl rfl

theorem answers_sysR (r1 : Reg) (s : State) (h : s.ext = none ∨ ((.sysR r1) : Instr).isExtension = false) : Answers
  (.sysR r1) s :=
  answers_extension (len := 2) (op := 0x75#8) rfl (h.resolve_right Bool.noConfusion) rfl

theorem answers_sysV8 (imm : BitVec 8) (s : State) (h : s.ext = none ∨ ((.sysV8 imm) : Instr).isExtension = false) :
  Answers (.sysV8 imm) s :=
  answers_extension (len := 2) (op := 0x76#8) rfl (h.resolve_right Bool.noConfusion) rfl

theorem answers_iret (s : State) (h : s.ext = none ∨ (.iret : Instr).isExtension = false) : Answers .iret s :=
  answers_extension (len := 1) (op := 0x77#8) rfl (h.resolve_right Bool.noConfusion) rfl

theorem answers_pushbR (r1 : Reg) (s : State) : Answers (.pushbR r1) s :=
  answers_raw (push_raw .w8 2 (readOp_reg s r1)) rfl (writes_sp _) rfl rfl rfl

theorem answers_pushbV8 (imm : BitVec 8) (s : State) : Answers (.pushbV8 imm) s :=
  answers_raw (push_raw .w8 2 (readOp_imm8 s imm)) rfl (writes_sp _) rfl rfl rfl

theorem answers_pushwR (r1 : Reg) (s : State) : Answers (.pushwR r1) s :=
  answers_raw (push_raw .w16 2 (readOp_reg s r1)) rfl (writes_sp _) rfl rfl rfl

theorem answers_pushwV16 (imm : BitVec 16) (s : State) : Answers (.pushwV16 imm) s :=
  answers_raw (push_raw .w16 3 (readOp_imm16 s imm)) rfl (writes_sp _) rfl rfl rfl

theorem answers_pushdR (r1 : Reg) (s : State) : Answers (.pushdR r1) s :=
  answers_raw (push_raw .w32 2 (readOp_reg s r1)) rfl (writes_sp _) rfl rfl rfl

theorem answers_pushdV32 (imm : Word) (s : State) : Answers (.pushdV32 imm) s :=
  answers_raw (push_raw .w32 5 (readOp_imm32 s imm)) rfl (writes_sp _) rfl rfl rfl

theorem answers_pushA (s : State) : Answers .pushA s :=
  answers_raw (pushAll_raw s 1) rfl (writes_sp _) rfl rfl rfl

theorem answers_popbR (r1 : Reg) (s : State) : Answers (.popbR r1) s :=
  answers_pop .w8 r1 (len := 2) rfl rfl rfl rfl rfl rfl rfl

theorem answers_popwR (r1 : Reg) (s : State) : Answers (.popwR r1) s :=
  answers_pop .w16 r1 (len := 2) rfl rfl rfl rfl rfl rfl rfl

theorem answers_popdR (r1 : Reg) (s : State) : Answers (.popdR r1) s :=
  answers_pop .w32 r1 (len := 2) rfl rfl rfl rfl rfl rfl rfl

theorem answers_popxR (r1 : Reg) (s : State) : Answers (.popxR r1) s :=
  answers_raw (discard_raw 2 (readOp_reg s r1)) rfl (writes_sp _) rfl rfl rfl

theorem answers_popxV8 (imm : BitVec 8) (s : State) : Answers (.popxV8 imm) s :=
  answers_raw (discard_raw 2 (readOp_imm8 s imm)) rfl (writes_sp _) rfl rfl rfl

theorem answers_popxV16 (imm : BitVec 16) (s : State) : Answers (.popxV16 imm) s :=
  answers_raw (discard_raw 3 (readOp_imm16 s imm)) rfl (writes_sp _) rfl rfl rfl

theorem answers_sret (s : State) (h : s.ext = none ∨ (.sret : Instr).isExtension = false) : Answers .sret s :=
  answers_extension (len := 1) (op := 0x86#8) rfl (h.resolve_right Bool.noConfusion) rfl

theorem answers_nop (s : State) : Answers .nop s :=
  answers_raw ⟨_, rfl, advance_raw s 1⟩ rfl (fun _ hw => absurd hw List.not_mem_nil) rfl rfl rfl

theorem answers_halt (s : State) : Answers .halt s :=
  ⟨_, rfl, .halts rfl⟩

theorem answers_dbg (s : State) : Answers .dbg s :=
  answers_raw ⟨_, rfl, advance_raw s 1⟩ rfl (fun _ hw => absurd hw List.not_mem_nil) rfl rfl rfl

theorem answers_swapRR (r1 r2 : Reg) (s : State) : Answers (.swapRR r1 r2) s :=
  answers_raw (exchange_raw s r1 r2 2) rfl (writes_pair r1 r2 _ _) rfl rfl rfl

theorem answers_cmpR (r1 : Reg) (s : State) : Answers (.cmpR r1) s :=
  answers_compare (r := r1) _ (len := 2) rfl (readOp_imm32 s 0#32) rfl rfl rfl rfl (by cases r1 <;> rfl) rfl

/-- What any instruction does, without an extension or with one for the instructions that are not its own: it answers a
  next
state, and `Does` says which. -/
theorem exec_does (i : Instr) (s : State) (h : s.ext = none ∨ i.isExtension = false) :
    ∃ t, exec i s = .next t ∧ Does i s t := by
  cases i with
  | movRR r1 r2 => exact answers_movRR r1 r2 s
  | movRV8 r1 imm => exact answers_movRV8 r1 imm s
  | movRV16 r1 imm => exact answers_movRV16 r1 imm s
  | movRV32 r1 imm => exact answers_movRV32 r1 imm s
  | movbRI r1 r2 => exact answers_movbRI r1 r2 s
  | movbRM r1 addr => exact answers_movbRM r1 addr s
  | movwRI r1 r2 => exact answers_movwRI r1 r2 s
  | movwRM r1 addr => exact answers_movwRM r1 addr s
  | movdRI r1 r2 => exact answers_movdRI r1 r2 s
  | movdRM r1 addr => exact answers_movdRM r1 addr s
  | movbIR r1 r2 => exact answers_movbIR r1 r2 s
  | movbIV8 r1 imm => exact answers_movbIV8 r1 imm s
  | movbII r1 r2 => exact answers_movbII r1 r2 s
  | movbIM r1 addr => exact answers_movbIM r1 addr s
  | movwIR r1 r2 => exact answers_movwIR r1 r2 s
  | movwIV16 r1 imm => exact answers_movwIV16 r1 imm s
  | movwII r1 r2 => exact answers_movwII r1 r2 s
  | movwIM r1 addr => exact answers_movwIM r1 addr s
  | movdIR r1 r2 => exact answers_movdIR r1 r2 s
  | movdIV32 r1 imm => exact answers_movdIV32 r1 imm s
  | movdII r1 r2 => exact answers_movdII r1 r2 s
  | movdIM r1 addr => exact answers_movdIM r1 addr s
  | movbMR addr r2 => exact answers_movbMR addr r2 s
  | movbMV8 addr imm => exact answers_movbMV8 addr imm s
  | movbMI addr r2 => exact answers_movbMI addr r2 s
  | movbMM addr1 addr2 => exact answers_movbMM addr1 addr2 s
  | movwMR addr r2 => exact answers_movwMR addr r2 s
  | movwMV16 addr imm => exact answers_movwMV16 addr imm s
  | movwMI addr r2 => exact answers_movwMI addr r2 s
  | movwMM addr1 addr2 => exact answers_movwMM addr1 addr2 s
  | movdMR addr r2 => exact answers_movdMR addr r2 s
  | movdMV32 addr imm => exact answers_movdMV32 addr imm s
  | movdMI addr r2 => exact answers_movdMI addr r2 s
  | movdMM addr1 addr2 => exact answers_movdMM addr1 addr2 s
  | orRR r1 r2 => exact answers_orRR r1 r2 s
  | orRV8 r1 imm => exact answers_orRV8 r1 imm s
  | orRV16 r1 imm => exact answers_orRV16 r1 imm s
  | orRV32 r1 imm => exact answers_orRV32 r1 imm s
  | xorRR r1 r2 => exact answers_xorRR r1 r2 s
  | xorRV8 r1 imm => exact answers_xorRV8 r1 imm s
  | xorRV16 r1 imm => exact answers_xorRV16 r1 imm s
  | xorRV32 r1 imm => exact answers_xorRV32 r1 imm s
  | andRR r1 r2 => exact answers_andRR r1 r2 s
  | andRV8 r1 imm => exact answers_andRV8 r1 imm s
  | andRV16 r1 imm => exact answers_andRV16 r1 imm s
  | andRV32 r1 imm => exact answers_andRV32 r1 imm s
  | shlRR r1 r2 => exact answers_shlRR r1 r2 s
  | shlRV8 r1 imm => exact answers_shlRV8 r1 imm s
  | shrRR r1 r2 => exact answers_shrRR r1 r2 s
  | shrRV8 r1 imm => exact answers_shrRV8 r1 imm s
  | notR r1 => exact answers_notR r1 s
  | addRR r1 r2 => exact answers_addRR r1 r2 s
  | addRV8 r1 imm => exact answers_addRV8 r1 imm s
  | addRV16 r1 imm => exact answers_addRV16 r1 imm s
  | addRV32 r1 imm => exact answers_addRV32 r1 imm s
  | subRR r1 r2 => exact answers_subRR r1 r2 s
  | subRV8 r1 imm => exact answers_subRV8 r1 imm s
  | subRV16 r1 imm => exact answers_subRV16 r1 imm s
  | subRV32 r1 imm => exact answers_subRV32 r1 imm s
  | cmpRR r1 r2 => exact answers_cmpRR r1 r2 s
  | cmpRV8 r1 imm => exact answers_cmpRV8 r1 imm s
  | cmpRV16 r1 imm => exact answers_cmpRV16 r1 imm s
  | cmpRV32 r1 imm => exact answers_cmpRV32 r1 imm s
  | mulRR r1 r2 => exact answers_mulRR r1 r2 s
  | mulRV8 r1 imm => exact answers_mulRV8 r1 imm s
  | mulRV16 r1 imm => exact answers_mulRV16 r1 imm s
  | mulRV32 r1 imm => exact answers_mulRV32 r1 imm s
  | idivRR r1 r2 => exact answers_idivRR r1 r2 s
  | idivRV8 r1 imm => exact answers_idivRV8 r1 imm s
  | idivRV16 r1 imm => exact answers_idivRV16 r1 imm s
  | idivRV32 r1 imm => exact answers_idivRV32 r1 imm s
  | modRR r1 r2 => exact answers_modRR r1 r2 s
  | modRV8 r1 imm => exact answers_modRV8 r1 imm s
  | modRV16 r1 imm => exact answers_modRV16 r1 imm s
  | modRV32 r1 imm => exact answers_modRV32 r1 imm s
  | incR r1 => exact answers_incR r1 s
  | decR r1 => exact answers_decR r1 s
  | bzR r1 => exact answers_bzR r1 s
  | bzV32 imm => exact answers_bzV32 imm s
  | bnzR r1 => exact answers_bnzR r1 s
  | bnzV32 imm => exact answers_bnzV32 imm s
  | bnegR r1 => exact answers_bnegR r1 s
  | bnegV32 imm => exact answers_bnegV32 imm s
  | bposR r1 => exact answers_bposR r1 s
  | bposV32 imm => exact answers_bposV32 imm s
  | bgtR r1 => exact answers_bgtR r1 s
  | bgtV32 imm => exact answers_bgtV32 imm s
  | bgteR r1 => exact answers_bgteR r1 s
  | bgteV32 imm => exact answers_bgteV32 imm s
  | bltR r1 => exact answers_bltR r1 s
  | bltV32 imm => exact answers_bltV32 imm s
  | blteR r1 => exact answers_blteR r1 s
  | blteV32 imm => exact answers_blteV32 imm s
  | bvR r1 => exact answers_bvR r1 s
  | bvV32 imm => exact answers_bvV32 imm s
  | bnvR r1 => exact answers_bnvR r1 s
  | bnvV32 imm => exact answers_bnvV32 imm s
  | jmpR r1 => exact answers_jmpR r1 s
  | jmpV32 imm => exact answers_jmpV32 imm s
  | jsrR r1 => exact answers_jsrR r1 s
  | jsrV32 imm => exact answers_jsrV32 imm s
  | ret => exact answers_ret s
  | sysR r1 => exact answers_sysR r1 s h
  | sysV8 imm => exact answers_sysV8 imm s h
  | iret => exact answers_iret s h
  | pushbR r1 => exact answers_pushbR r1 s
  | pushbV8 imm => exact answers_pushbV8 imm s
  | pushwR r1 => exact answers_pushwR r1 s
  | pushwV16 imm => exact answers_pushwV16 imm s
  | pushdR r1 => exact answers_pushdR r1 s
  | pushdV32 imm => exact answers_pushdV32 imm s
  | pushA => exact answers_pushA s
  | popbR r1 => exact answers_popbR r1 s
  | popwR r1 => exact answers_popwR r1 s
  | popdR r1 => exact answers_popdR r1 s
  | popA => exact answers_popA s
  | popxR r1 => exact answers_popxR r1 s
  | popxV8 imm => exact answers_popxV8 imm s
  | popxV16 imm => exact answers_popxV16 imm s
  | sret => exact answers_sret s h
  | nop => exact answers_nop s
  | halt => exact answers_halt s
  | dbg => exact answers_dbg s
  | swapRR r1 r2 => exact answers_swapRR r1 r2 s
  | cmpR r1 => exact answers_cmpR r1 s

end Sys2Proof.Machine
end

