-- ==== Sys2Proof/Laws/Cycle.lean ====
section
/-! SUPPORT. What the poll phase and the apply phase of a global step keep. -/

namespace Sys2Proof.Machine

/-! ### The poll phase -/

/-- What nothing in the poll phase changes (R73): memory, the offset, the table in the state, the platform; and the status
changes to FAULT only by a fault that has its cause (R321, R322, R332). -/
structure PollKeeps (s t : State) : Prop where
  ram : t.ram = s.ram
  memSize : t.memSize = s.memSize
  offset : t.offset = s.offset
  devices : t.devices = s.devices
  ext : t.ext = s.ext
  draws : t.draws = s.draws
  fault : ∀ f p, t.status = .fault f p → s.status = .fault f p ∨ f.Caused s

theorem PollKeeps.refl (s : State) : PollKeeps s s := ⟨rfl, rfl, rfl, rfl, rfl, rfl, fun _ _ => .inl⟩

theorem PollKeeps.busGet {s t : State} (h : PollKeeps s t) (a : Nat) : busGet t a = busGet s a :=
  busGet_congr h.ram h.memSize h.offset h.devices a

theorem PollKeeps.trans {s t u : State} (h : PollKeeps s t) (g : PollKeeps t u) : PollKeeps s u :=
  ⟨g.ram.trans h.ram, g.memSize.trans h.memSize, g.offset.trans h.offset, g.devices.trans h.devices, g.ext.trans h.ext,
    g.draws.trans h.draws, fun f p e => (g.fault f p e).elim (h.fault f p) fun c => .inr (c.congr h.busGet)⟩

theorem BusKept.pollKeeps {s t : State} {cs : List Command} (h : BusKept s t cs) (hs : t.status = s.status) : PollKeeps s t :=
  ⟨h.ram, h.memSize, h.offset, h.devices, h.ext, h.draws, fun _ _ e => .inl (hs.symm.trans e)⟩

/-- Taking a fault that has its cause. -/
theorem pollKeeps_pollFault {s : State} {f : Fault} (h : f.Caused s) : PollKeeps s (pollFault s f) :=
  ⟨rfl, rfl, rfl, rfl, rfl, rfl, fun _ _ e => .inr (by cases e; exact h)⟩

/-- An extension's own fault has its cause: it is no OutOfRange (R305, R321). -/
theorem ExtFault.caused (f : ExtFault) (s : State) : f.toFault.Caused s := by
  cases f <;> exact ⟨rfl, fun _ e => by cases e⟩

/-- Fetch and decode raise IllegalInstruction, or OutOfRange at a byte that cannot be read (R321, R323). -/
theorem fetch_caused {s : State} {f : Fault} (h : fetch s = .error f) : f.Caused s := by
  unfold fetch at h
  split at h
  · cases h
  · rename_i k hd
    cases h
    refine Fault.caused_outOfRange fun b hb => ?_
    have hk := decode_unreadable hd
    simp only [fetchReader, hb] at hk
    cases hk
  · cases h
    exact ⟨rfl, fun _ e => by cases e⟩

theorem Does.pollKeeps {i : Instr} {s t : State} (d : Does i s t) : PollKeeps s t := by
  cases d with
  | faults f _ h => exact pollKeeps_pollFault h
  | writes _ _ _ _ _ h => exact h.bus.pollKeeps h.status
  | stores _ _ _ h => exact h.bus.pollKeeps h.status
  | compares _ _ _ _ h => exact h.bus.pollKeeps h.status
  | raw _ _ h => exact h.bus.pollKeeps h.status
  | transfers _ _ _ h => exact h.bus.pollKeeps h.status
  | halts h => exact ⟨rfl, rfl, rfl, rfl, rfl, rfl, fun _ _ e => by cases e⟩

theorem extension_keeps (i : Instr) (op : Byte) (len : Nat) (s : State) :
    ∃ t, extension i op len s = .next t ∧ PollKeeps s t := by
  unfold extension
  cases hx : s.ext with
  | none => exact ⟨_, rfl, pollKeeps_pollFault ⟨rfl, fun _ e => by cases e⟩⟩
  | some id =>
    cases hf : firstFault s (Config.extReads id s.regs (busView s) i) with
    | some f =>
      obtain ⟨a, rfl, hc⟩ := firstFault_caused hf
      exact ⟨_, by simp only [hf]; rfl, pollKeeps_pollFault hc⟩
    | none =>
      cases hr : Config.extSem id s.regs (busView s) i with
      | error f => exact ⟨_, by simp only [hf, hr]; rfl, pollKeeps_pollFault (f.caused s)⟩
      | ok r =>
        exact ⟨_, by simp only [hf, hr]; rfl, by split <;> exact ⟨rfl, rfl, rfl, rfl, rfl, rfl, fun _ _ => .inl⟩⟩

/-- Every instruction answers a next state and keeps what the poll phase keeps, with or without an extension. -/
theorem exec_keeps (i : Instr) (s : State) : ∃ t, exec i s = .next t ∧ PollKeeps s t := by
  by_cases hx : i.isExtension = true
  · have : ∃ op len, exec i s = extension i op len s := by
      cases i <;> first | exact ⟨_, _, rfl⟩ | exact absurd hx Bool.noConfusion
    obtain ⟨op, len, e⟩ := this
    rw [e]
    exact extension_keeps i op len s
  · obtain ⟨t, h1, h2⟩ := exec_does i s (.inr (by simpa using hx))
    exact ⟨t, h1, h2.pollKeeps⟩

theorem cpuPoll_keeps (s : State) : ∃ t, cpuPoll s = .next t ∧ PollKeeps s t := by
  unfold cpuPoll
  split
  · unfold cpuStep
    split
    · exact exec_keeps _ s
    · rename_i f h
      exact ⟨_, rfl, pollKeeps_pollFault (fetch_caused h)⟩
  · exact ⟨_, rfl, .refl s⟩
  · exact ⟨_, rfl, .refl s⟩

/-- One poll answers a next state; a device other than the CPU changes no register, and the status only to FAULT. -/
theorem pollEntry_keeps (d : DeviceEntry) (s : State) :
    ∃ t e, pollEntry d s = (.next t, e) ∧ PollKeeps s t ∧ e.shape = d.shape ∧
      (d.device.isCpu = false → t.regs = s.regs ∧ (t.status = s.status ∨ t.status.isFault = true)) := by
  obtain ⟨base, dev⟩ := d
  cases dev with
  | cpu =>
    obtain ⟨t, h1, h2⟩ := cpuPoll_keeps s
    exact ⟨t, _, by simp only [pollEntry, h1], h2, rfl, fun h => by cases h⟩
  | other id size st =>
    simp only [pollEntry]
    split
    · rename_i f hf
      obtain ⟨a, rfl, hc⟩ := firstFault_caused hf
      exact ⟨_, _, rfl, pollKeeps_pollFault hc, rfl, fun _ => ⟨rfl, .inr rfl⟩⟩
    · exact ⟨_, _, rfl, ⟨rfl, rfl, rfl, rfl, rfl, rfl, fun _ _ => .inl⟩, rfl, fun _ => ⟨rfl, .inl rfl⟩⟩

/-- The poll phase answers a next state, keeps what a poll keeps, and keeps the shape of the table. -/
theorem pollDevices_keeps (ds : List DeviceEntry) (s : State) :
    ∃ t es, pollDevices ds s = (.next t, es) ∧ PollKeeps s t ∧ es.map DeviceEntry.shape = ds.map DeviceEntry.shape := by
  induction ds generalizing s with
  | nil => exact ⟨s, [], rfl, .refl s, rfl⟩
  | cons d ds ih =>
    obtain ⟨t, e, h1, h2, h3, _⟩ := pollEntry_keeps d s
    simp only [pollDevices, h1]
    split
    · exact ⟨_, _, rfl, h2, by simp [h3]⟩
    · obtain ⟨u, es, g1, g2, g3⟩ := ih t
      simp only [g1]
      exact ⟨_, _, rfl, h2.trans g2, by simp [h3, g3]⟩

/-! ### The apply phase -/

/-- What the apply phase keeps, whatever it is stopped by (R40, R75, R76). -/
structure ApplyKeeps (s t : State) : Prop where
  regs : t.regs = s.regs
  memSize : t.memSize = s.memSize
  ext : t.ext = s.ext
  draws : t.draws = s.draws
  shape : t.devices.map DeviceEntry.shape = s.devices.map DeviceEntry.shape
  queue : s.queue = [] → t.queue = []
  ramCanonical : s.ram.wf = true → t.ram.wf = true
  ramBelow : s.ram.below s.memSize = true → t.ram.below t.memSize = true
  status : t.status = s.status ∨ t.status.isFault = true
  fault : ∀ f p, t.status = .fault f p → s.status = .fault f p ∨ f.raisable = true ∧ p = .apply

theorem applyQueue_keeps (q : List Command) (s : State) : ApplyKeeps s (applyQueue q s) := by
  induction q generalizing s with
  | nil => exact ⟨rfl, rfl, rfl, rfl, rfl, id, id, id, .inl rfl, fun _ _ => .inl⟩
  | cons c cs ih =>
    have k := busWrite_keeps (s := s) (a := c.addr.toNat) (bs := c.bytes)
    have sh := busWrite_shape (s := s) (a := c.addr.toNat) (bs := c.bytes)
    have wf := busWrite_wf (s := s) (a := c.addr.toNat) (bs := c.bytes)
    have be := busWrite_below (s := s) (a := c.addr.toNat) (bs := c.bytes)
    unfold applyQueue
    split
    · rename_i s' h
      rw [h] at k sh wf be
      have i := ih s'
      exact ⟨i.regs.trans k.regs, i.memSize.trans k.memSize, i.ext.trans k.ext, i.draws.trans k.draws, i.shape.trans sh,
        fun q => i.queue (k.queue.trans q), fun q => i.ramCanonical (wf q), fun q => i.ramBelow (be q),
        i.status.imp (fun x => x.trans k.status) id, fun f p e => k.status ▸ i.fault f p e⟩
    · rename_i s' f h
      rw [h] at k sh wf be
      obtain ⟨b, rfl⟩ := busWrite_error h
      exact ⟨k.regs, k.memSize, k.ext, k.draws, sh, fun _ => rfl, wf, be, .inr rfl,
        fun _ _ e => .inr (by cases e; exact ⟨rfl, rfl⟩)⟩

end Sys2Proof.Machine
end

