-- ==== Sys2Proof/Laws/PerInstr.lean ====
section
/-! SUPPORT. The lemmas made per instruction: family `Encoding`, one lemma for each constructor of `Instr`. -/

namespace Sys2Proof.Laws.Encoding

/-- The encoding of an instruction: it begins with its opcode byte, it has the instruction's length, that is at most nine
bytes (R100), the opcode has a row (R111), and the assembler's table gives the same opcode (R118). -/
def Statement (i : Instr) : Prop :=
  (encode i).head? = some i.opcode ∧ (encode i).length = i.length ∧ (decide (i.length ≤ 9)) = true ∧
    (formOf i.opcode).isSome = true ∧ assemble i.asm = some (encode i)

theorem movRR (r1 r2 : Reg) : Statement (.movRR r1 r2) :=
  ⟨rfl, rfl, rfl, rfl, rfl⟩

theorem movRV8 (r1 : Reg) (imm : BitVec 8) : Statement (.movRV8 r1 imm) :=
  ⟨rfl, rfl, rfl, rfl, rfl⟩

theorem movRV16 (r1 : Reg) (imm : BitVec 16) : Statement (.movRV16 r1 imm) :=
  ⟨rfl, rfl, rfl, rfl, rfl⟩

theorem movRV32 (r1 : Reg) (imm : Word) : Statement (.movRV32 r1 imm) :=
  ⟨rfl, rfl, rfl, rfl, rfl⟩

theorem movbRI (r1 r2 : Reg) : Statement (.movbRI r1 r2) :=
  ⟨rfl, rfl, rfl, rfl, rfl⟩

theorem movbRM (r1 : Reg) (addr : Word) : Statement (.movbRM r1 addr) :=
  ⟨rfl, rfl, rfl, rfl, rfl⟩

theorem movwRI (r1 r2 : Reg) : Statement (.movwRI r1 r2) :=
  ⟨rfl, rfl, rfl, rfl, rfl⟩

theorem movwRM (r1 : Reg) (addr : Word) : Statement (.movwRM r1 addr) :=
  ⟨rfl, rfl, rfl, rfl, rfl⟩

theorem movdRI (r1 r2 : Reg) : Statement (.movdRI r1 r2) :=
  ⟨rfl, rfl, rfl, rfl, rfl⟩

theorem movdRM (r1 : Reg) (addr : Word) : Statement (.movdRM r1 addr) :=
  ⟨rfl, rfl, rfl, rfl, rfl⟩

theorem movbIR (r1 r2 : Reg) : Statement (.movbIR r1 r2) :=
  ⟨rfl, rfl, rfl, rfl, rfl⟩

theorem movbIV8 (r1 : Reg) (imm : BitVec 8) : Statement (.movbIV8 r1 imm) :=
  ⟨rfl, rfl, rfl, rfl, rfl⟩

theorem movbII (r1 r2 : Reg) : Statement (.movbII r1 r2) :=
  ⟨rfl, rfl, rfl, rfl, rfl⟩

theorem movbIM (r1 : Reg) (addr : Word) : Statement (.movbIM r1 addr) :=
  ⟨rfl, rfl, rfl, rfl, rfl⟩

theorem movwIR (r1 r2 : Reg) : Statement (.movwIR r1 r2) :=
  ⟨rfl, rfl, rfl, rfl, rfl⟩

theorem movwIV16 (r1 : Reg) (imm : BitVec 16) : Statement (.movwIV16 r1 imm) :=
  ⟨rfl, rfl, rfl, rfl, rfl⟩

theorem movwII (r1 r2 : Reg) : Statement (.movwII r1 r2) :=
  ⟨rfl, rfl, rfl, rfl, rfl⟩

theorem movwIM (r1 : Reg) (addr : Word) : Statement (.movwIM r1 addr) :=
  ⟨rfl, rfl, rfl, rfl, rfl⟩

theorem movdIR (r1 r2 : Reg) : Statement (.movdIR r1 r2) :=
  ⟨rfl, rfl, rfl, rfl, rfl⟩

theorem movdIV32 (r1 : Reg) (imm : Word) : Statement (.movdIV32 r1 imm) :=
  ⟨rfl, rfl, rfl, rfl, rfl⟩

theorem movdII (r1 r2 : Reg) : Statement (.movdII r1 r2) :=
  ⟨rfl, rfl, rfl, rfl, rfl⟩

theorem movdIM (r1 : Reg) (addr : Word) : Statement (.movdIM r1 addr) :=
  ⟨rfl, rfl, rfl, rfl, rfl⟩

theorem movbMR (addr : Word) (r2 : Reg) : Statement (.movbMR addr r2) :=
  ⟨rfl, rfl, rfl, rfl, rfl⟩

theorem movbMV8 (addr : Word) (imm : BitVec 8) : Statement (.movbMV8 addr imm) :=
  ⟨rfl, rfl, rfl, rfl, rfl⟩

theorem movbMI (addr : Word) (r2 : Reg) : Statement (.movbMI addr r2) :=
  ⟨rfl, rfl, rfl, rfl, rfl⟩

theorem movbMM (addr1 addr2 : Word) : Statement (.movbMM addr1 addr2) :=
  ⟨rfl, rfl, rfl, rfl, rfl⟩

theorem movwMR (addr : Word) (r2 : Reg) : Statement (.movwMR addr r2) :=
  ⟨rfl, rfl, rfl, rfl, rfl⟩

theorem movwMV16 (addr : Word) (imm : BitVec 16) : Statement (.movwMV16 addr imm) :=
  ⟨rfl, rfl, rfl, rfl, rfl⟩

theorem movwMI (addr : Word) (r2 : Reg) : Statement (.movwMI addr r2) :=
  ⟨rfl, rfl, rfl, rfl, rfl⟩

theorem movwMM (addr1 addr2 : Word) : Statement (.movwMM addr1 addr2) :=
  ⟨rfl, rfl, rfl, rfl, rfl⟩

theorem movdMR (addr : Word) (r2 : Reg) : Statement (.movdMR addr r2) :=
  ⟨rfl, rfl, rfl, rfl, rfl⟩

theorem movdMV32 (addr imm : Word) : Statement (.movdMV32 addr imm) :=
  ⟨rfl, rfl, rfl, rfl, rfl⟩

theorem movdMI (addr : Word) (r2 : Reg) : Statement (.movdMI addr r2) :=
  ⟨rfl, rfl, rfl, rfl, rfl⟩

theorem movdMM (addr1 addr2 : Word) : Statement (.movdMM addr1 addr2) :=
  ⟨rfl, rfl, rfl, rfl, rfl⟩

theorem orRR (r1 r2 : Reg) : Statement (.orRR r1 r2) :=
  ⟨rfl, rfl, rfl, rfl, rfl⟩

theorem orRV8 (r1 : Reg) (imm : BitVec 8) : Statement (.orRV8 r1 imm) :=
  ⟨rfl, rfl, rfl, rfl, rfl⟩

theorem orRV16 (r1 : Reg) (imm : BitVec 16) : Statement (.orRV16 r1 imm) :=
  ⟨rfl, rfl, rfl, rfl, rfl⟩

theorem orRV32 (r1 : Reg) (imm : Word) : Statement (.orRV32 r1 imm) :=
  ⟨rfl, rfl, rfl, rfl, rfl⟩

theorem xorRR (r1 r2 : Reg) : Statement (.xorRR r1 r2) :=
  ⟨rfl, rfl, rfl, rfl, rfl⟩

theorem xorRV8 (r1 : Reg) (imm : BitVec 8) : Statement (.xorRV8 r1 imm) :=
  ⟨rfl, rfl, rfl, rfl, rfl⟩

theorem xorRV16 (r1 : Reg) (imm : BitVec 16) : Statement (.xorRV16 r1 imm) :=
  ⟨rfl, rfl, rfl, rfl, rfl⟩

theorem xorRV32 (r1 : Reg) (imm : Word) : Statement (.xorRV32 r1 imm) :=
  ⟨rfl, rfl, rfl, rfl, rfl⟩

theorem andRR (r1 r2 : Reg) : Statement (.andRR r1 r2) :=
  ⟨rfl, rfl, rfl, rfl, rfl⟩

theorem andRV8 (r1 : Reg) (imm : BitVec 8) : Statement (.andRV8 r1 imm) :=
  ⟨rfl, rfl, rfl, rfl, rfl⟩

theorem andRV16 (r1 : Reg) (imm : BitVec 16) : Statement (.andRV16 r1 imm) :=
  ⟨rfl, rfl, rfl, rfl, rfl⟩

theorem andRV32 (r1 : Reg) (imm : Word) : Statement (.andRV32 r1 imm) :=
  ⟨rfl, rfl, rfl, rfl, rfl⟩

theorem shlRR (r1 r2 : Reg) : Statement (.shlRR r1 r2) :=
  ⟨rfl, rfl, rfl, rfl, rfl⟩

theorem shlRV8 (r1 : Reg) (imm : BitVec 8) : Statement (.shlRV8 r1 imm) :=
  ⟨rfl, rfl, rfl, rfl, rfl⟩

theorem shrRR (r1 r2 : Reg) : Statement (.shrRR r1 r2) :=
  ⟨rfl, rfl, rfl, rfl, rfl⟩

theorem shrRV8 (r1 : Reg) (imm : BitVec 8) : Statement (.shrRV8 r1 imm) :=
  ⟨rfl, rfl, rfl, rfl, rfl⟩

theorem notR (r1 : Reg) : Statement (.notR r1) :=
  ⟨rfl, rfl, rfl, rfl, rfl⟩

theorem addRR (r1 r2 : Reg) : Statement (.addRR r1 r2) :=
  ⟨rfl, rfl, rfl, rfl, rfl⟩

theorem addRV8 (r1 : Reg) (imm : BitVec 8) : Statement (.addRV8 r1 imm) :=
  ⟨rfl, rfl, rfl, rfl, rfl⟩

theorem addRV16 (r1 : Reg) (imm : BitVec 16) : Statement (.addRV16 r1 imm) :=
  ⟨rfl, rfl, rfl, rfl, rfl⟩

theorem addRV32 (r1 : Reg) (imm : Word) : Statement (.addRV32 r1 imm) :=
  ⟨rfl, rfl, rfl, rfl, rfl⟩

theorem subRR (r1 r2 : Reg) : Statement (.subRR r1 r2) :=
  ⟨rfl, rfl, rfl, rfl, rfl⟩

theorem subRV8 (r1 : Reg) (imm : BitVec 8) : Statement (.subRV8 r1 imm) :=
  ⟨rfl, rfl, rfl, rfl, rfl⟩

theorem subRV16 (r1 : Reg) (imm : BitVec 16) : Statement (.subRV16 r1 imm) :=
  ⟨rfl, rfl, rfl, rfl, rfl⟩

theorem subRV32 (r1 : Reg) (imm : Word) : Statement (.subRV32 r1 imm) :=
  ⟨rfl, rfl, rfl, rfl, rfl⟩

theorem cmpRR (r1 r2 : Reg) : Statement (.cmpRR r1 r2) :=
  ⟨rfl, rfl, rfl, rfl, rfl⟩

theorem cmpRV8 (r1 : Reg) (imm : BitVec 8) : Statement (.cmpRV8 r1 imm) :=
  ⟨rfl, rfl, rfl, rfl, rfl⟩

theorem cmpRV16 (r1 : Reg) (imm : BitVec 16) : Statement (.cmpRV16 r1 imm) :=
  ⟨rfl, rfl, rfl, rfl, rfl⟩

theorem cmpRV32 (r1 : Reg) (imm : Word) : Statement (.cmpRV32 r1 imm) :=
  ⟨rfl, rfl, rfl, rfl, rfl⟩

theorem mulRR (r1 r2 : Reg) : Statement (.mulRR r1 r2) :=
  ⟨rfl, rfl, rfl, rfl, rfl⟩

theorem mulRV8 (r1 : Reg) (imm : BitVec 8) : Statement (.mulRV8 r1 imm) :=
  ⟨rfl, rfl, rfl, rfl, rfl⟩

theorem mulRV16 (r1 : Reg) (imm : BitVec 16) : Statement (.mulRV16 r1 imm) :=
  ⟨rfl, rfl, rfl, rfl, rfl⟩

theorem mulRV32 (r1 : Reg) (imm : Word) : Statement (.mulRV32 r1 imm) :=
  ⟨rfl, rfl, rfl, rfl, rfl⟩

theorem idivRR (r1 r2 : Reg) : Statement (.idivRR r1 r2) :=
  ⟨rfl, rfl, rfl, rfl, rfl⟩

theorem idivRV8 (r1 : Reg) (imm : BitVec 8) : Statement (.idivRV8 r1 imm) :=
  ⟨rfl, rfl, rfl, rfl, rfl⟩

theorem idivRV16 (r1 : Reg) (imm : BitVec 16) : Statement (.idivRV16 r1 imm) :=
  ⟨rfl, rfl, rfl, rfl, rfl⟩

theorem idivRV32 (r1 : Reg) (imm : Word) : Statement (.idivRV32 r1 imm) :=
  ⟨rfl, rfl, rfl, rfl, rfl⟩

theorem modRR (r1 r2 : Reg) : Statement (.modRR r1 r2) :=
  ⟨rfl, rfl, rfl, rfl, rfl⟩

theorem modRV8 (r1 : Reg) (imm : BitVec 8) : Statement (.modRV8 r1 imm) :=
  ⟨rfl, rfl, rfl, rfl, rfl⟩

theorem modRV16 (r1 : Reg) (imm : BitVec 16) : Statement (.modRV16 r1 imm) :=
  ⟨rfl, rfl, rfl, rfl, rfl⟩

theorem modRV32 (r1 : Reg) (imm : Word) : Statement (.modRV32 r1 imm) :=
  ⟨rfl, rfl, rfl, rfl, rfl⟩

theorem incR (r1 : Reg) : Statement (.incR r1) :=
  ⟨rfl, rfl, rfl, rfl, rfl⟩

theorem decR (r1 : Reg) : Statement (.decR r1) :=
  ⟨rfl, rfl, rfl, rfl, rfl⟩

theorem bzR (r1 : Reg) : Statement (.bzR r1) :=
  ⟨rfl, rfl, rfl, rfl, rfl⟩

theorem bzV32 (imm : Word) : Statement (.bzV32 imm) :=
  ⟨rfl, rfl, rfl, rfl, rfl⟩

theorem bnzR (r1 : Reg) : Statement (.bnzR r1) :=
  ⟨rfl, rfl, rfl, rfl, rfl⟩

theorem bnzV32 (imm : Word) : Statement (.bnzV32 imm) :=
  ⟨rfl, rfl, rfl, rfl, rfl⟩

theorem bnegR (r1 : Reg) : Statement (.bnegR r1) :=
  ⟨rfl, rfl, rfl, rfl, rfl⟩

theorem bnegV32 (imm : Word) : Statement (.bnegV32 imm) :=
  ⟨rfl, rfl, rfl, rfl, rfl⟩

theorem bposR (r1 : Reg) : Statement (.bposR r1) :=
  ⟨rfl, rfl, rfl, rfl, rfl⟩

theorem bposV32 (imm : Word) : Statement (.bposV32 imm) :=
  ⟨rfl, rfl, rfl, rfl, rfl⟩

theorem bgtR (r1 : Reg) : Statement (.bgtR r1) :=
  ⟨rfl, rfl, rfl, rfl, rfl⟩

theorem bgtV32 (imm : Word) : Statement (.bgtV32 imm) :=
  ⟨rfl, rfl, rfl, rfl, rfl⟩

theorem bgteR (r1 : Reg) : Statement (.bgteR r1) :=
  ⟨rfl, rfl, rfl, rfl, rfl⟩

theorem bgteV32 (imm : Word) : Statement (.bgteV32 imm) :=
  ⟨rfl, rfl, rfl, rfl, rfl⟩

theorem bltR (r1 : Reg) : Statement (.bltR r1) :=
  ⟨rfl, rfl, rfl, rfl, rfl⟩

theorem bltV32 (imm : Word) : Statement (.bltV32 imm) :=
  ⟨rfl, rfl, rfl, rfl, rfl⟩

theorem blteR (r1 : Reg) : Statement (.blteR r1) :=
  ⟨rfl, rfl, rfl, rfl, rfl⟩

theorem blteV32 (imm : Word) : Statement (.blteV32 imm) :=
  ⟨rfl, rfl, rfl, rfl, rfl⟩

theorem bvR (r1 : Reg) : Statement (.bvR r1) :=
  ⟨rfl, rfl, rfl, rfl, rfl⟩

theorem bvV32 (imm : Word) : Statement (.bvV32 imm) :=
  ⟨rfl, rfl, rfl, rfl, rfl⟩

theorem bnvR (r1 : Reg) : Statement (.bnvR r1) :=
  ⟨rfl, rfl, rfl, rfl, rfl⟩

theorem bnvV32 (imm : Word) : Statement (.bnvV32 imm) :=
  ⟨rfl, rfl, rfl, rfl, rfl⟩

theorem jmpR (r1 : Reg) : Statement (.jmpR r1) :=
  ⟨rfl, rfl, rfl, rfl, rfl⟩

theorem jmpV32 (imm : Word) : Statement (.jmpV32 imm) :=
  ⟨rfl, rfl, rfl, rfl, rfl⟩

theorem jsrR (r1 : Reg) : Statement (.jsrR r1) :=
  ⟨rfl, rfl, rfl, rfl, rfl⟩

theorem jsrV32 (imm : Word) : Statement (.jsrV32 imm) :=
  ⟨rfl, rfl, rfl, rfl, rfl⟩

theorem ret : Statement (.ret) :=
  ⟨rfl, rfl, rfl, rfl, rfl⟩

theorem sysR (r1 : Reg) : Statement (.sysR r1) :=
  ⟨rfl, rfl, rfl, rfl, rfl⟩

theorem sysV8 (imm : BitVec 8) : Statement (.sysV8 imm) :=
  ⟨rfl, rfl, rfl, rfl, rfl⟩

theorem iret : Statement (.iret) :=
  ⟨rfl, rfl, rfl, rfl, rfl⟩

theorem pushbR (r1 : Reg) : Statement (.pushbR r1) :=
  ⟨rfl, rfl, rfl, rfl, rfl⟩

theorem pushbV8 (imm : BitVec 8) : Statement (.pushbV8 imm) :=
  ⟨rfl, rfl, rfl, rfl, rfl⟩

theorem pushwR (r1 : Reg) : Statement (.pushwR r1) :=
  ⟨rfl, rfl, rfl, rfl, rfl⟩

theorem pushwV16 (imm : BitVec 16) : Statement (.pushwV16 imm) :=
  ⟨rfl, rfl, rfl, rfl, rfl⟩

theorem pushdR (r1 : Reg) : Statement (.pushdR r1) :=
  ⟨rfl, rfl, rfl, rfl, rfl⟩

theorem pushdV32 (imm : Word) : Statement (.pushdV32 imm) :=
  ⟨rfl, rfl, rfl, rfl, rfl⟩

theorem pushA : Statement (.pushA) :=
  ⟨rfl, rfl, rfl, rfl, rfl⟩

theorem popbR (r1 : Reg) : Statement (.popbR r1) :=
  ⟨rfl, rfl, rfl, rfl, rfl⟩

theorem popwR (r1 : Reg) : Statement (.popwR r1) :=
  ⟨rfl, rfl, rfl, rfl, rfl⟩

theorem popdR (r1 : Reg) : Statement (.popdR r1) :=
  ⟨rfl, rfl, rfl, rfl, rfl⟩

theorem popA : Statement (.popA) :=
  ⟨rfl, rfl, rfl, rfl, rfl⟩

theorem popxR (r1 : Reg) : Statement (.popxR r1) :=
  ⟨rfl, rfl, rfl, rfl, rfl⟩

theorem popxV8 (imm : BitVec 8) : Statement (.popxV8 imm) :=
  ⟨rfl, rfl, rfl, rfl, rfl⟩

theorem popxV16 (imm : BitVec 16) : Statement (.popxV16 imm) :=
  ⟨rfl, rfl, rfl, rfl, rfl⟩

theorem sret : Statement (.sret) :=
  ⟨rfl, rfl, rfl, rfl, rfl⟩

theorem nop : Statement (.nop) :=
  ⟨rfl, rfl, rfl, rfl, rfl⟩

theorem halt : Statement (.halt) :=
  ⟨rfl, rfl, rfl, rfl, rfl⟩

theorem dbg : Statement (.dbg) :=
  ⟨rfl, rfl, rfl, rfl, rfl⟩

theorem swapRR (r1 r2 : Reg) : Statement (.swapRR r1 r2) :=
  ⟨rfl, rfl, rfl, rfl, rfl⟩

theorem cmpR (r1 : Reg) : Statement (.cmpR r1) :=
  ⟨rfl, rfl, rfl, rfl, rfl⟩

end Sys2Proof.Laws.Encoding
end

