-- ==== Sys2Proof/Tests/Slice0.lean ====
section
/-! SUPPORT. The model's own tests. The expected results of the vectors are the spec's (spec/95_test_vectors.md, whose ids the
names carry); the words of the decode tests are written out from the formats of spec/30_encoding.md R103. The `witness`
theorems show, for each obligation that has hypotheses, a state and operands that meet them. -/

set_option maxRecDepth 4000

namespace Sys2Proof.Machine

/-- The machine right after reset with these registers and these bytes of memory. -/
def start (regs : List (Reg × Word)) (cells : List Host.Cell) : State := setRegs regs (loadRam cells State.reset)

/-- One step from `start regs cells` ends with every register as listed, the rest zero, these bytes in memory, this status and
this offset. -/
def vector (regs : List (Reg × Word)) (cells : List Host.Cell) (regs' : List (Reg × Word)) (cells' : List Host.Cell)
    (status : Status) (offset : Word) : Bool :=
  match step (start regs cells) with
  | .next t => decide (t.regs = (setRegs regs' State.reset).regs) && cells'.all (fun c => t.ram.read c.1 == c.2) &&
      decide (t.status = status) && decide (t.offset = offset)
  | .fault _ => false
  | .refused _ => false

/-! ### Well-formed terms: each check refuses a term that passes the other two (R101, R111, R115) -/

theorem test_wellFormed_accepts : (⟨.mov, [.reg .a, .imm8 5]⟩ : AsmInstr).wellFormed = true := by decide

theorem test_wellFormed_alias : (⟨.beq, [.reg .a]⟩ : AsmInstr).wellFormed = true := by decide

theorem test_arity_refuses_three_operands :
    (⟨.mov, [.reg .a, .reg .b, .reg .c]⟩ : AsmInstr).arityOk = false ∧
      (⟨.mov, [.reg .a, .reg .b, .reg .c]⟩ : AsmInstr).destinationAddressable = true := by decide

theorem test_form_refuses_movb_register_register :
    (⟨.movb, [.reg .a, .reg .b]⟩ : AsmInstr).formExists = false ∧
      (⟨.movb, [.reg .a, .reg .b]⟩ : AsmInstr).arityOk = true ∧
      (⟨.movb, [.reg .a, .reg .b]⟩ : AsmInstr).destinationAddressable = true := by decide

theorem test_destination_refuses_immediate :
    (⟨.mov, [.imm8 5, .reg .a]⟩ : AsmInstr).destinationAddressable = false ∧
      (⟨.mov, [.imm8 5, .reg .a]⟩ : AsmInstr).arityOk = true := by decide

/-! ### Decoding, one word for every constructor: D is 3 and C is 2, the opcode is the low byte (R103, R111) -/

/-- Every word of the list decodes to the instruction beside it. -/
def decodes (rows : List (Nat × Nat × Instr)) : Bool :=
  rows.all fun r => decide (decodeTableWord r.1 r.2.1 = some r.2.2)

theorem test_decode_move_a : decodes [
    (16, 0x3201, .movRR .d .c),
    (24, 0xA50302, .movRV8 .d 0xA5#8),
    (32, 0xBEEF0303, .movRV16 .d 0xBEEF#16),
    (48, 0xCAFEBABE0304, .movRV32 .d 0xCAFEBABE#32),
    (16, 0x3205, .movbRI .d .c),
    (48, 0x9ABCDEF00306, .movbRM .d 0x9ABCDEF0#32),
    (16, 0x3207, .movwRI .d .c),
    (48, 0x9ABCDEF00308, .movwRM .d 0x9ABCDEF0#32),
    (16, 0x3209, .movdRI .d .c)] = true := by decide

theorem test_decode_move_b : decodes [
    (48, 0x9ABCDEF0030A, .movdRM .d 0x9ABCDEF0#32),
    (16, 0x320B, .movbIR .d .c),
    (24, 0xA5030C, .movbIV8 .d 0xA5#8),
    (16, 0x320D, .movbII .d .c),
    (48, 0x9ABCDEF0030E, .movbIM .d 0x9ABCDEF0#32),
    (16, 0x320F, .movwIR .d .c),
    (32, 0xBEEF031A, .movwIV16 .d 0xBEEF#16),
    (16, 0x321B, .movwII .d .c),
    (48, 0x9ABCDEF0031C, .movwIM .d 0x9ABCDEF0#32)] = true := by decide

theorem test_decode_move_c : decodes [
    (16, 0x321D, .movdIR .d .c),
    (48, 0xCAFEBABE031E, .movdIV32 .d 0xCAFEBABE#32),
    (16, 0x321F, .movdII .d .c),
    (48, 0x9ABCDEF00320, .movdIM .d 0x9ABCDEF0#32),
    (48, 0x021234567821, .movbMR 0x12345678#32 .c),
    (48, 0xA51234567822, .movbMV8 0x12345678#32 0xA5#8),
    (48, 0x021234567823, .movbMI 0x12345678#32 .c),
    (72, 0x9ABCDEF01234567824, .movbMM 0x12345678#32 0x9ABCDEF0#32),
    (48, 0x021234567825, .movwMR 0x12345678#32 .c)] = true := by decide

theorem test_decode_move_d : decodes [
    (56, 0xBEEF1234567826, .movwMV16 0x12345678#32 0xBEEF#16),
    (48, 0x021234567827, .movwMI 0x12345678#32 .c),
    (72, 0x9ABCDEF01234567828, .movwMM 0x12345678#32 0x9ABCDEF0#32),
    (48, 0x021234567829, .movdMR 0x12345678#32 .c),
    (72, 0xCAFEBABE123456782A, .movdMV32 0x12345678#32 0xCAFEBABE#32),
    (48, 0x02123456782B, .movdMI 0x12345678#32 .c),
    (72, 0x9ABCDEF0123456782C, .movdMM 0x12345678#32 0x9ABCDEF0#32),
    (16, 0x328A, .swapRR .d .c)] = true := by decide

theorem test_decode_logic_a : decodes [
    (16, 0x322D, .orRR .d .c),
    (24, 0xA5032E, .orRV8 .d 0xA5#8),
    (32, 0xBEEF032F, .orRV16 .d 0xBEEF#16),
    (48, 0xCAFEBABE0330, .orRV32 .d 0xCAFEBABE#32),
    (16, 0x3231, .xorRR .d .c),
    (24, 0xA50332, .xorRV8 .d 0xA5#8),
    (32, 0xBEEF0333, .xorRV16 .d 0xBEEF#16),
    (48, 0xCAFEBABE0334, .xorRV32 .d 0xCAFEBABE#32),
    (16, 0x3235, .andRR .d .c)] = true := by decide

theorem test_decode_logic_b : decodes [
    (24, 0xA50336, .andRV8 .d 0xA5#8),
    (32, 0xBEEF0337, .andRV16 .d 0xBEEF#16),
    (48, 0xCAFEBABE0338, .andRV32 .d 0xCAFEBABE#32),
    (16, 0x3239, .shlRR .d .c),
    (24, 0xA5033A, .shlRV8 .d 0xA5#8),
    (16, 0x323D, .shrRR .d .c),
    (24, 0xA5033E, .shrRV8 .d 0xA5#8),
    (16, 0x0341, .notR .d)] = true := by decide

theorem test_decode_arithmetic_a : decodes [
    (16, 0x3242, .addRR .d .c),
    (24, 0xA50343, .addRV8 .d 0xA5#8),
    (32, 0xBEEF0344, .addRV16 .d 0xBEEF#16),
    (48, 0xCAFEBABE0345, .addRV32 .d 0xCAFEBABE#32),
    (16, 0x3246, .subRR .d .c),
    (24, 0xA50347, .subRV8 .d 0xA5#8),
    (32, 0xBEEF0348, .subRV16 .d 0xBEEF#16),
    (48, 0xCAFEBABE0349, .subRV32 .d 0xCAFEBABE#32),
    (16, 0x324A, .cmpRR .d .c)] = true := by decide

theorem test_decode_arithmetic_b : decodes [
    (24, 0xA5034B, .cmpRV8 .d 0xA5#8),
    (32, 0xBEEF034C, .cmpRV16 .d 0xBEEF#16),
    (48, 0xCAFEBABE034D, .cmpRV32 .d 0xCAFEBABE#32),
    (16, 0x324E, .mulRR .d .c),
    (24, 0xA5034F, .mulRV8 .d 0xA5#8),
    (32, 0xBEEF0350, .mulRV16 .d 0xBEEF#16),
    (48, 0xCAFEBABE0351, .mulRV32 .d 0xCAFEBABE#32),
    (16, 0x3252, .idivRR .d .c),
    (24, 0xA50353, .idivRV8 .d 0xA5#8)] = true := by decide

theorem test_decode_arithmetic_c : decodes [
    (32, 0xBEEF0354, .idivRV16 .d 0xBEEF#16),
    (48, 0xCAFEBABE0355, .idivRV32 .d 0xCAFEBABE#32),
    (16, 0x3256, .modRR .d .c),
    (24, 0xA50357, .modRV8 .d 0xA5#8),
    (32, 0xBEEF0358, .modRV16 .d 0xBEEF#16),
    (48, 0xCAFEBABE0359, .modRV32 .d 0xCAFEBABE#32),
    (16, 0x035A, .incR .d),
    (16, 0x035B, .decR .d),
    (16, 0x038B, .cmpR .d)] = true := by decide

theorem test_decode_branch_a : decodes [
    (16, 0x035C, .bzR .d),
    (40, 0xCAFEBABE5D, .bzV32 0xCAFEBABE#32),
    (16, 0x035E, .bnzR .d),
    (40, 0xCAFEBABE5F, .bnzV32 0xCAFEBABE#32),
    (16, 0x0360, .bnegR .d),
    (40, 0xCAFEBABE61, .bnegV32 0xCAFEBABE#32),
    (16, 0x0362, .bposR .d),
    (40, 0xCAFEBABE63, .bposV32 0xCAFEBABE#32),
    (16, 0x0364, .bgtR .d)] = true := by decide

theorem test_decode_branch_b : decodes [
    (40, 0xCAFEBABE65, .bgtV32 0xCAFEBABE#32),
    (16, 0x0366, .bgteR .d),
    (40, 0xCAFEBABE67, .bgteV32 0xCAFEBABE#32),
    (16, 0x0368, .bltR .d),
    (40, 0xCAFEBABE69, .bltV32 0xCAFEBABE#32),
    (16, 0x036A, .blteR .d),
    (40, 0xCAFEBABE6B, .blteV32 0xCAFEBABE#32),
    (16, 0x036C, .bvR .d),
    (40, 0xCAFEBABE6D, .bvV32 0xCAFEBABE#32)] = true := by decide

theorem test_decode_branch_c : decodes [
    (16, 0x036E, .bnvR .d),
    (40, 0xCAFEBABE6F, .bnvV32 0xCAFEBABE#32),
    (16, 0x0370, .jmpR .d),
    (40, 0xCAFEBABE71, .jmpV32 0xCAFEBABE#32),
    (16, 0x0372, .jsrR .d),
    (40, 0xCAFEBABE73, .jsrV32 0xCAFEBABE#32),
    (8, 0x74, .ret)] = true := by decide

theorem test_decode_misc_a : decodes [
    (16, 0x0375, .sysR .d),
    (16, 0xA576, .sysV8 0xA5#8),
    (8, 0x77, .iret),
    (8, 0x86, .sret),
    (8, 0x87, .nop),
    (8, 0x88, .halt),
    (8, 0x89, .dbg)] = true := by decide

theorem test_decode_stack_a : decodes [
    (16, 0x0378, .pushbR .d),
    (16, 0xA579, .pushbV8 0xA5#8),
    (16, 0x037A, .pushwR .d),
    (24, 0xBEEF7B, .pushwV16 0xBEEF#16),
    (16, 0x037C, .pushdR .d),
    (40, 0xCAFEBABE7D, .pushdV32 0xCAFEBABE#32),
    (8, 0x7E, .pushA),
    (16, 0x037F, .popbR .d),
    (16, 0x0380, .popwR .d)] = true := by decide

theorem test_decode_stack_b : decodes [
    (16, 0x0381, .popdR .d),
    (8, 0x82, .popA),
    (16, 0x0383, .popxR .d),
    (16, 0xA584, .popxV8 0xA5#8),
    (24, 0xBEEF85, .popxV16 0xBEEF#16)] = true := by decide

theorem test_decode_refuses :
    decodeTableWord 8 0x00 = none ∧ decodeTableWord 8 0x10 = none ∧ decodeTableWord 8 0x3F = none ∧
      decodeTableWord 8 0x8C = none ∧ decodeTableWord 24 0x001002 = none ∧ decodeTableWord 16 0xFF41 = none ∧
      decodeTableWord 48 0x1F0000030021 = none := by decide

theorem test_assemble_alias : assemble ⟨.beq, [.reg .a]⟩ = some [0x5C#8, 0x00#8] := by decide

/-! ### Vectors of the spec, at most two for an opcode -/

/-- T5: `mov B, C`, bytes 01 12 (R170). -/
theorem test_T5 :
    vector [(.c, 0x1234)] [(0x0, 0x1), (0x1, 0x12)] [(.c, 0x1234), (.b, 0x1234), (.pc, 0x2), (.fl, 0x40)] [] .run 0 =
      true := by decide

/-- MV9: `mov PC, C`, bytes 01 E2 (R170). -/
theorem test_MV9 :
    vector [(.c, 0x400), (.fl, 0x33)] [(0x0, 0x1), (0x1, 0xE2)] [(.c, 0x400), (.fl, 0x33), (.pc, 0x402)] [] .run 0 =
      true := by decide

/-- T6a: `mov A, 0x0`, bytes 02 00 00 (R171). -/
theorem test_T6a :
    vector [] [(0x0, 0x2), (0x1, 0x0), (0x2, 0x0)] [(.pc, 0x3), (.fl, 0x44)] [] .run 0 = true := by decide

/-- MV1: `mov A, 0xFF`, bytes 02 00 FF (R171). -/
theorem test_MV1 :
    vector [] [(0x0, 0x2), (0x1, 0x0), (0x2, 0xFF)] [(.a, 0xFF), (.pc, 0x3)] [] .run 0 = true := by decide

/-- T7: `mov A, 0xF0000001`, bytes 04 00 01 00 00 F0 (R173). -/
theorem test_T7 :
    vector [] [(0x0, 0x4), (0x1, 0x0), (0x2, 0x1), (0x3, 0x0), (0x4, 0x0), (0x5, 0xF0)] [(.a, 0xF0000001), (.pc, 0x6),
      (.fl, 0x8)] [] .run 0 = true := by decide

/-- T8: `movb [A], [B]`, bytes 0D 01 (R182). -/
theorem test_T8 :
    vector [(.a, 0x32), (.b, 0x64)] [(0x0, 0xD), (0x1, 0x1), (0x64, 0xFF)] [(.a, 0x32), (.b, 0x64), (.pc, 0x2), (.fl,
      0x8)] [(0x32, 0xFF)] .run 0 = true := by decide

/-- MV15: `movb [A], [B]`, bytes 0D 01 (R182). -/
theorem test_MV15 :
    vector [(.a, 0xF0000004), (.b, 0x64)] [(0x0, 0xD), (0x1, 0x1), (0x64, 0xFF)] [(.a, 0xF0000004), (.b, 0x64), (.pc,
      0x2), (.fl, 0x8)] [] (.fault (.outOfRange 0xF0000004) .apply) 0 = true := by decide

/-- MV2: `movb A, [B]`, bytes 05 01 (R174). -/
theorem test_MV2 :
    vector [(.a, 0xFFFFFFFF), (.b, 0x100)] [(0x0, 0x5), (0x1, 0x1), (0x100, 0x80), (0x101, 0x11), (0x102, 0x22),
      (0x103, 0x33)] [(.a, 0x80), (.b, 0x100), (.pc, 0x2), (.fl, 0x48)] [] .run 0 = true := by decide

/-- MV3: `movw A, [B]`, bytes 07 01 (R176). -/
theorem test_MV3 :
    vector [(.a, 0xFFFFFFFF), (.b, 0x100)] [(0x0, 0x7), (0x1, 0x1), (0x100, 0x0), (0x101, 0x80), (0x102, 0x22),
      (0x103, 0x33)] [(.a, 0x8000), (.b, 0x100), (.pc, 0x2), (.fl, 0x48)] [] .run 0 = true := by decide

/-- MV4: `movd A, [0x100]`, bytes 0A 00 00 01 00 00 (R179). -/
theorem test_MV4 :
    vector [] [(0x0, 0xA), (0x1, 0x0), (0x2, 0x0), (0x3, 0x1), (0x4, 0x0), (0x5, 0x0), (0x100, 0x1), (0x101, 0x0),
      (0x102, 0x0), (0x103, 0x80)] [(.a, 0x80000001), (.pc, 0x6), (.fl, 0x8)] [] .run 0 = true := by decide

/-- MV17: `movd A, [0xF0000000]`, bytes 0A 00 00 00 00 F0 (R179). -/
theorem test_MV17 :
    vector [(.a, 0x1)] [(0x0, 0xA), (0x1, 0x0), (0x2, 0x0), (0x3, 0x0), (0x4, 0x0), (0x5, 0xF0)] [(.pc, 0x6), (.fl,
      0x44)] [] .run 0 = true := by decide

/-- MV5: `movb [A], 0x0`, bytes 0C 00 00 (R181). -/
theorem test_MV5 :
    vector [(.a, 0x200)] [(0x0, 0xC), (0x1, 0x0), (0x2, 0x0), (0x200, 0x55)] [(.a, 0x200), (.pc, 0x3), (.fl, 0x44)]
      [(0x200, 0x0)] .run 0 = true := by decide

/-- MV6: `movb [0x200], C`, bytes 21 00 02 00 00 02 (R192). -/
theorem test_MV6 :
    vector [(.c, 0x1234ABCD)] [(0x0, 0x21), (0x1, 0x0), (0x2, 0x2), (0x3, 0x0), (0x4, 0x0), (0x5, 0x2)] [(.c,
      0x1234ABCD), (.pc, 0x6), (.fl, 0x8)] [(0x200, 0xCD)] .run 0 = true := by decide

/-- MV7: `movw [0x200], C`, bytes 25 00 02 00 00 02 (R196). -/
theorem test_MV7 :
    vector [(.c, 0x1234ABCD)] [(0x0, 0x25), (0x1, 0x0), (0x2, 0x2), (0x3, 0x0), (0x4, 0x0), (0x5, 0x2)] [(.c,
      0x1234ABCD), (.pc, 0x6), (.fl, 0x8)] [(0x200, 0xCD), (0x201, 0xAB)] .run 0 = true := by decide

/-- MV8: `movd [A], A`, bytes 1D 00 (R188). -/
theorem test_MV8 :
    vector [(.a, 0x200)] [(0x0, 0x1D), (0x1, 0x0)] [(.a, 0x200), (.pc, 0x2), (.fl, 0x40)] [(0x201, 0x2)] .run 0 = true
      := by decide

/-- MV13: `movb A, [0xFFFD]`, bytes 06 00 FD FF 00 00 (R175). -/
theorem test_MV13 :
    vector [(.a, 0x77)] [(0x0, 0x6), (0x1, 0x0), (0x2, 0xFD), (0x3, 0xFF), (0x4, 0x0), (0x5, 0x0)] [(.a, 0x77)] []
      (.fault (.outOfRange 0x10000) .poll) 0 = true := by decide

/-- MV14: `movb A, [0xFFFC]`, bytes 06 00 FC FF 00 00 (R175). -/
theorem test_MV14 :
    vector [(.a, 0x77)] [(0x0, 0x6), (0x1, 0x0), (0x2, 0xFC), (0x3, 0xFF), (0x4, 0x0), (0x5, 0x0), (0xFFFC, 0x99)]
      [(.a, 0x99), (.pc, 0x6), (.fl, 0x8)] [] .run 0 = true := by decide

/-- MV16: `movd [0xF0000000], A`, bytes 29 00 00 00 F0 00 (R200). -/
theorem test_MV16 :
    vector [(.a, 0x8000)] [(0x0, 0x29), (0x1, 0x0), (0x2, 0x0), (0x3, 0x0), (0x4, 0xF0), (0x5, 0x0)] [(.a, 0x8000),
      (.pc, 0x6), (.fl, 0x40)] [] .run 0x00008000 = true := by decide

/-- MV18: `movw [A], 0xBEEF`, bytes 1A 00 EF BE (R185). -/
theorem test_MV18 :
    vector [(.a, 0xFFFF)] [(0x0, 0x1A), (0x1, 0x0), (0x2, 0xEF), (0x3, 0xBE)] [(.a, 0xFFFF), (.pc, 0x4), (.fl, 0x8)]
      [(0xFFFF, 0xEF)] (.fault (.outOfRange 0x10000) .apply) 0 = true := by decide

/-- MV20: `swap A, FL`, bytes 8A 0F (R204). -/
theorem test_MV20 :
    vector [(.a, 0x44), (.fl, 0x33)] [(0x0, 0x8A), (0x1, 0xF)] [(.a, 0x33), (.fl, 0x44), (.pc, 0x2)] [] .run 0 = true
      := by decide

/-- MV21: `swap A, PC`, bytes 8A 0E (R204). -/
theorem test_MV21 :
    vector [(.a, 0x100), (.pc, 0x40)] [(0x40, 0x8A), (0x41, 0xE)] [(.a, 0x40), (.pc, 0x102)] [] .run 0 = true := by
      decide

/-- LG1: `or A, B`, bytes 2D 01 (R210). -/
theorem test_LG1 :
    vector [(.a, 0xF0F00000), (.b, 0xF0F)] [(0x0, 0x2D), (0x1, 0x1)] [(.a, 0xF0F00F0F), (.b, 0xF0F), (.pc, 0x2), (.fl,
      0x8)] [] .run 0 = true := by decide

/-- LG2: `xor A, A`, bytes 31 00 (R214). -/
theorem test_LG2 :
    vector [(.a, 0xDEADBEEF), (.fl, 0x33)] [(0x0, 0x31), (0x1, 0x0)] [(.fl, 0x44), (.pc, 0x2)] [] .run 0 = true := by
      decide

/-- LG3: `and A, 0xFF`, bytes 36 00 FF (R219). -/
theorem test_LG3 :
    vector [(.a, 0xDEADBEEF)] [(0x0, 0x36), (0x1, 0x0), (0x2, 0xFF)] [(.a, 0xEF), (.pc, 0x3)] [] .run 0 = true := by
      decide

/-- LG4: `and A, 0x80000000`, bytes 38 00 00 00 00 80 (R221). -/
theorem test_LG4 :
    vector [(.a, 0xDEADBEEF)] [(0x0, 0x38), (0x1, 0x0), (0x2, 0x0), (0x3, 0x0), (0x4, 0x0), (0x5, 0x80)] [(.a,
      0x80000000), (.pc, 0x6), (.fl, 0x48)] [] .run 0 = true := by decide

/-- LG5: `or A, 0x8000`, bytes 2F 00 00 80 (R212). -/
theorem test_LG5 :
    vector [(.a, 0x0)] [(0x0, 0x2F), (0x1, 0x0), (0x2, 0x0), (0x3, 0x80)] [(.a, 0x8000), (.pc, 0x4), (.fl, 0x40)] []
      .run 0 = true := by decide

/-- LG7: `shl A, 0x1`, bytes 3A 00 01 (R223). -/
theorem test_LG7 :
    vector [(.a, 0x80000001)] [(0x0, 0x3A), (0x1, 0x0), (0x2, 0x1)] [(.a, 0x2), (.pc, 0x3), (.fl, 0x40)] [] .run 0 =
      true := by decide

/-- LG9: `shl A, 0x20`, bytes 3A 00 20 (R223). -/
theorem test_LG9 :
    vector [(.a, 0xFFFFFFFF)] [(0x0, 0x3A), (0x1, 0x0), (0x2, 0x20)] [(.pc, 0x3), (.fl, 0x44)] [] .run 0 = true := by
      decide

/-- LG10: `shl A, B`, bytes 39 01 (R222). -/
theorem test_LG10 :
    vector [(.a, 0xFFFFFFFF), (.b, 0x100)] [(0x0, 0x39), (0x1, 0x1)] [(.b, 0x100), (.pc, 0x2), (.fl, 0x44)] [] .run 0
      = true := by decide

/-- LG14: `shl A, A`, bytes 39 00 (R222). -/
theorem test_LG14 :
    vector [(.a, 0x3)] [(0x0, 0x39), (0x1, 0x0)] [(.a, 0x18), (.pc, 0x2), (.fl, 0x40)] [] .run 0 = true := by decide

/-- LG12: `shr A, 0x4`, bytes 3E 00 04 (R225). -/
theorem test_LG12 :
    vector [(.a, 0xF0000000)] [(0x0, 0x3E), (0x1, 0x0), (0x2, 0x4)] [(.a, 0xF000000), (.pc, 0x3), (.fl, 0x40)] [] .run
      0 = true := by decide

/-- LG13: `shr A, B`, bytes 3D 01 (R224). -/
theorem test_LG13 :
    vector [(.a, 0xFFFFFFFF), (.b, 0xFFFFFFFF)] [(0x0, 0x3D), (0x1, 0x1)] [(.b, 0xFFFFFFFF), (.pc, 0x2), (.fl, 0x44)]
      [] .run 0 = true := by decide

/-- LG16: `not A`, bytes 41 00 (R226). -/
theorem test_LG16 :
    vector [(.a, 0xFFFFFFFF)] [(0x0, 0x41), (0x1, 0x0)] [(.pc, 0x2), (.fl, 0x44)] [] .run 0 = true := by decide

/-- LG17: `not FL`, bytes 41 0F (R226). -/
theorem test_LG17 :
    vector [(.fl, 0x0)] [(0x0, 0x41), (0x1, 0xF)] [(.fl, 0xFFFFFFFF), (.pc, 0x2)] [] .run 0 = true := by decide

/-- LG18: `or PC, 0x40`, bytes 2E 0E 40 (R211). -/
theorem test_LG18 :
    vector [(.fl, 0x33), (.pc, 0x100)] [(0x100, 0x2E), (0x101, 0xE), (0x102, 0x40)] [(.fl, 0x33), (.pc, 0x143)] []
      .run 0 = true := by decide

/-- AR3: `add A, B`, bytes 42 01 (R230). -/
theorem test_AR3 :
    vector [(.a, 0x80000000), (.b, 0x80000000)] [(0x0, 0x42), (0x1, 0x1)] [(.b, 0x80000000), (.pc, 0x2), (.fl, 0x47)]
      [] .run 0 = true := by decide

/-- AR5: `add A, 0xFF`, bytes 43 00 FF (R231). -/
theorem test_AR5 :
    vector [(.a, 0x1)] [(0x0, 0x43), (0x1, 0x0), (0x2, 0xFF)] [(.a, 0x100), (.pc, 0x3), (.fl, 0x40)] [] .run 0 = true
      := by decide

/-- AR10: `sub A, B`, bytes 46 01 (R234). -/
theorem test_AR10 :
    vector [(.a, 0x7FFFFFFF), (.b, 0xFFFFFFFF)] [(0x0, 0x46), (0x1, 0x1)] [(.a, 0x80000000), (.b, 0xFFFFFFFF), (.pc,
      0x2), (.fl, 0x4B)] [] .run 0 = true := by decide

/-- AR12: `cmp A, B`, bytes 4A 01 (R238). -/
theorem test_AR12 :
    vector [(.a, 0x3), (.b, 0x5)] [(0x0, 0x4A), (0x1, 0x1)] [(.a, 0x3), (.b, 0x5), (.pc, 0x2), (.fl, 0x69)] [] .run 0
      = true := by decide

/-- AR14: `cmp A, B`, bytes 4A 01 (R238). -/
theorem test_AR14 :
    vector [(.a, 0x80000000), (.b, 0x1)] [(0x0, 0x4A), (0x1, 0x1)] [(.a, 0x80000000), (.b, 0x1), (.pc, 0x2), (.fl,
      0x12)] [] .run 0 = true := by decide

/-- AR15: `cmp A, 0xFF`, bytes 4B 00 FF (R239). -/
theorem test_AR15 :
    vector [(.a, 0xFFFFFFFF)] [(0x0, 0x4B), (0x1, 0x0), (0x2, 0xFF)] [(.a, 0xFFFFFFFF), (.pc, 0x3), (.fl, 0x58)] []
      .run 0 = true := by decide

/-- AR16: `cmp A`, bytes 8B 00 (R256). -/
theorem test_AR16 :
    vector [(.a, 0x0)] [(0x0, 0x8B), (0x1, 0x0)] [(.pc, 0x2), (.fl, 0x44)] [] .run 0 = true := by decide

/-- AR18: `mul A, B`, bytes 4E 01 (R242). -/
theorem test_AR18 :
    vector [(.a, 0x3), (.b, 0x5)] [(0x0, 0x4E), (0x1, 0x1)] [(.a, 0xF), (.b, 0x5), (.pc, 0x2)] [] .run 0 = true := by
      decide

/-- AR22: `idiv A, B`, bytes 52 01 (R246). -/
theorem test_AR22 :
    vector [(.a, 0x7), (.b, 0x2)] [(0x0, 0x52), (0x1, 0x1)] [(.a, 0x3), (.b, 0x2), (.pc, 0x2)] [] .run 0 = true := by
      decide

/-- AR23: `mod A, B`, bytes 56 01 (R250). -/
theorem test_AR23 :
    vector [(.a, 0x7), (.b, 0x2)] [(0x0, 0x56), (0x1, 0x1)] [(.a, 0x1), (.b, 0x2), (.pc, 0x2)] [] .run 0 = true := by
      decide

/-- AR27: `mod A, 0x0`, bytes 57 00 00 (R251). -/
theorem test_AR27 :
    vector [(.a, 0x7)] [(0x0, 0x57), (0x1, 0x0), (0x2, 0x0)] [(.a, 0x7)] [] (.fault (.divideByZero 0x0) .poll) 0 =
      true := by decide

/-- AR29: `inc A`, bytes 5A 00 (R254). -/
theorem test_AR29 :
    vector [(.a, 0xFFFFFFFF)] [(0x0, 0x5A), (0x1, 0x0)] [(.pc, 0x2), (.fl, 0x45)] [] .run 0 = true := by decide

/-- AR31: `dec A`, bytes 5B 00 (R255). -/
theorem test_AR31 :
    vector [(.a, 0x0)] [(0x0, 0x5B), (0x1, 0x0)] [(.a, 0xFFFFFFFF), (.pc, 0x2), (.fl, 0x9)] [] .run 0 = true := by
      decide

/-- BR1: `bz 0x1234`, bytes 5D 34 12 00 00 (R261). -/
theorem test_BR1 :
    vector [(.fl, 0x4), (.pc, 0x400)] [(0x400, 0x5D), (0x401, 0x34), (0x402, 0x12), (0x403, 0x0), (0x404, 0x0)] [(.fl,
      0x4), (.pc, 0x1234)] [] .run 0 = true := by decide

/-- BR3: `bz C`, bytes 5C 02 (R260). -/
theorem test_BR3 :
    vector [(.c, 0x1234), (.fl, 0x4), (.pc, 0x400)] [(0x400, 0x5C), (0x401, 0x2)] [(.c, 0x1234), (.fl, 0x4), (.pc,
      0x1234)] [] .run 0 = true := by decide

/-- BR4: `bnz C`, bytes 5E 02 (R262). -/
theorem test_BR4 :
    vector [(.c, 0x1234), (.fl, 0x4), (.pc, 0x400)] [(0x400, 0x5E), (0x401, 0x2)] [(.c, 0x1234), (.fl, 0x4), (.pc,
      0x402)] [] .run 0 = true := by decide

/-- BR5: `bgte 0x1234`, bytes 67 34 12 00 00 (R271). -/
theorem test_BR5 :
    vector [(.fl, 0x4), (.pc, 0x400)] [(0x400, 0x67), (0x401, 0x34), (0x402, 0x12), (0x403, 0x0), (0x404, 0x0)] [(.fl,
      0x4), (.pc, 0x1234)] [] .run 0 = true := by decide

/-- BR7: `blte 0x1234`, bytes 6B 34 12 00 00 (R275). -/
theorem test_BR7 :
    vector [(.fl, 0x20), (.pc, 0x400)] [(0x400, 0x6B), (0x401, 0x34), (0x402, 0x12), (0x403, 0x0), (0x404, 0x0)]
      [(.fl, 0x20), (.pc, 0x1234)] [] .run 0 = true := by decide

/-- BR8: `bgt 0x1234`, bytes 65 34 12 00 00 (R269). -/
theorem test_BR8 :
    vector [(.fl, 0x14), (.pc, 0x400)] [(0x400, 0x65), (0x401, 0x34), (0x402, 0x12), (0x403, 0x0), (0x404, 0x0)]
      [(.fl, 0x14), (.pc, 0x1234)] [] .run 0 = true := by decide

/-- BR9: `bneg 0x1234`, bytes 61 34 12 00 00 (R265). -/
theorem test_BR9 :
    vector [(.fl, 0x8), (.pc, 0x400)] [(0x400, 0x61), (0x401, 0x34), (0x402, 0x12), (0x403, 0x0), (0x404, 0x0)] [(.fl,
      0x8), (.pc, 0x1234)] [] .run 0 = true := by decide

/-- BR10: `bpos 0x1234`, bytes 63 34 12 00 00 (R267). -/
theorem test_BR10 :
    vector [(.fl, 0x8), (.pc, 0x400)] [(0x400, 0x63), (0x401, 0x34), (0x402, 0x12), (0x403, 0x0), (0x404, 0x0)] [(.fl,
      0x8), (.pc, 0x405)] [] .run 0 = true := by decide

/-- BR11: `bv 0x1234`, bytes 6D 34 12 00 00 (R277). -/
theorem test_BR11 :
    vector [(.fl, 0x2), (.pc, 0x400)] [(0x400, 0x6D), (0x401, 0x34), (0x402, 0x12), (0x403, 0x0), (0x404, 0x0)] [(.fl,
      0x2), (.pc, 0x1234)] [] .run 0 = true := by decide

/-- BR12: `bnv 0x1234`, bytes 6F 34 12 00 00 (R279). -/
theorem test_BR12 :
    vector [(.fl, 0x2), (.pc, 0x400)] [(0x400, 0x6F), (0x401, 0x34), (0x402, 0x12), (0x403, 0x0), (0x404, 0x0)] [(.fl,
      0x2), (.pc, 0x405)] [] .run 0 = true := by decide

/-- BR13: `jmp 0x400`, bytes 71 00 04 00 00 (R281). -/
theorem test_BR13 :
    vector [(.pc, 0x400)] [(0x400, 0x71), (0x401, 0x0), (0x402, 0x4), (0x403, 0x0), (0x404, 0x0)] [(.pc, 0x400)] []
      .run 0 = true := by decide

/-- BR14: `jmp PC`, bytes 70 0E (R280). -/
theorem test_BR14 :
    vector [(.pc, 0x400)] [(0x400, 0x70), (0x401, 0xE)] [(.pc, 0x400)] [] .run 0 = true := by decide

/-- BR16: `jsr 0x1234`, bytes 73 34 12 00 00 (R283). -/
theorem test_BR16 :
    vector [(.sp, 0x1000), (.pc, 0x400)] [(0x400, 0x73), (0x401, 0x34), (0x402, 0x12), (0x403, 0x0), (0x404, 0x0)]
      [(.sp, 0xFFC), (.pc, 0x1234)] [(0xFFC, 0x5), (0xFFD, 0x4)] .run 0 = true := by decide

/-- BR17: `jsr C`, bytes 72 02 (R282). -/
theorem test_BR17 :
    vector [(.c, 0x1234), (.sp, 0x1000), (.pc, 0x400)] [(0x400, 0x72), (0x401, 0x2)] [(.c, 0x1234), (.sp, 0xFFC),
      (.pc, 0x1234)] [(0xFFC, 0x2), (0xFFD, 0x4)] .run 0 = true := by decide

/-- BR20: `ret`, bytes 74 (R284). -/
theorem test_BR20 :
    vector [(.sp, 0xFFC), (.pc, 0x1240)] [(0x1240, 0x74), (0xFFC, 0x5), (0xFFD, 0x4), (0xFFE, 0x0), (0xFFF, 0x0)]
      [(.sp, 0x1000), (.pc, 0x405)] [] .run 0 = true := by decide

/-- ST1: `pushb 0xA5`, bytes 79 A5 (R291). -/
theorem test_ST1 :
    vector [(.sp, 0x1000), (.fl, 0x33)] [(0x0, 0x79), (0x1, 0xA5)] [(.sp, 0xFFF), (.fl, 0x33), (.pc, 0x2)] [(0xFFF,
      0xA5)] .run 0 = true := by decide

/-- ST2: `pushw C`, bytes 7A 02 (R292). -/
theorem test_ST2 :
    vector [(.c, 0x1234ABCD), (.sp, 0x1000)] [(0x0, 0x7A), (0x1, 0x2)] [(.c, 0x1234ABCD), (.sp, 0xFFE), (.pc, 0x2)]
      [(0xFFE, 0xCD), (0xFFF, 0xAB)] .run 0 = true := by decide

/-- ST4: `pushd SP`, bytes 7C 0D (R294). -/
theorem test_ST4 :
    vector [(.sp, 0x1000)] [(0x0, 0x7C), (0x1, 0xD)] [(.sp, 0xFFC), (.pc, 0x2)] [(0xFFD, 0x10)] .run 0 = true := by
      decide

/-- ST7: `pushd A`, bytes 7C 00 (R294). -/
theorem test_ST7 :
    vector [(.a, 0x5)] [(0x0, 0x7C), (0x1, 0x0)] [(.a, 0x5), (.sp, 0xFFFFFFFC), (.pc, 0x2)] [] (.fault (.outOfRange
      0xFFFFFFFC) .apply) 0 = true := by decide

/-- ST6: `pushw 0xBEEF`, bytes 7B EF BE (R293). -/
theorem test_ST6 :
    vector [(.sp, 0x1001)] [(0x0, 0x7B), (0x1, 0xEF), (0x2, 0xBE)] [(.sp, 0xFFF), (.pc, 0x3)] [(0xFFF, 0xEF), (0x1000,
      0xBE)] .run 0 = true := by decide

/-- ST8: `popb A`, bytes 7F 00 (R297). -/
theorem test_ST8 :
    vector [(.a, 0xFFFFFFFF), (.sp, 0xFFF), (.fl, 0x33)] [(0x0, 0x7F), (0x1, 0x0), (0xFFF, 0x80)] [(.a, 0x80), (.sp,
      0x1000), (.fl, 0x33), (.pc, 0x2)] [] .run 0 = true := by decide

/-- ST14: `popb A`, bytes 7F 00 (R297). -/
theorem test_ST14 :
    vector [(.sp, 0xFFFF)] [(0x0, 0x7F), (0x1, 0x0), (0xFFFF, 0x7E)] [(.sp, 0x10000), (.a, 0x7E), (.pc, 0x2)] [] .run
      0 = true := by decide

/-- ST9: `popw A`, bytes 80 00 (R298). -/
theorem test_ST9 :
    vector [(.sp, 0xFFE)] [(0x0, 0x80), (0x1, 0x0), (0xFFE, 0xCD), (0xFFF, 0xAB)] [(.sp, 0x1000), (.a, 0xABCD), (.pc,
      0x2)] [] .run 0 = true := by decide

/-- ST11: `popd SP`, bytes 81 0D (R299). -/
theorem test_ST11 :
    vector [(.sp, 0xFFC)] [(0x0, 0x81), (0x1, 0xD), (0xFFC, 0x0), (0xFFD, 0x20), (0xFFE, 0x0), (0xFFF, 0x0)] [(.sp,
      0x2000), (.pc, 0x2)] [] .run 0 = true := by decide

/-- ST15: `popd A`, bytes 81 00 (R299). -/
theorem test_ST15 :
    vector [(.a, 0x77), (.sp, 0xFFFE)] [(0x0, 0x81), (0x1, 0x0)] [(.a, 0x77), (.sp, 0xFFFE)] [] (.fault (.outOfRange
      0x10000) .poll) 0 = true := by decide

/-- ST17: `popx 0x8`, bytes 84 08 (R302). -/
theorem test_ST17 :
    vector [(.sp, 0xFF8)] [(0x0, 0x84), (0x1, 0x8)] [(.sp, 0x1000), (.pc, 0x2)] [] .run 0 = true := by decide

/-- ST18: `popx C`, bytes 83 02 (R301). -/
theorem test_ST18 :
    vector [(.c, 0xFFFFFFFC), (.sp, 0x1000)] [(0x0, 0x83), (0x1, 0x2)] [(.c, 0xFFFFFFFC), (.sp, 0xFFC), (.pc, 0x2)] []
      .run 0 = true := by decide

/-- ST20: `popx 0x1000`, bytes 85 00 10 (R303). -/
theorem test_ST20 :
    vector [(.sp, 0xFFFFF800)] [(0x0, 0x85), (0x1, 0x0), (0x2, 0x10)] [(.sp, 0x800), (.pc, 0x3)] [] .run 0 = true :=
      by decide

/-- ST21: `push.a`, bytes 7E (R296). -/
theorem test_ST21 :
    vector [(.a, 0x1), (.b, 0x2), (.l, 0xC), (.sp, 0x20), (.pc, 0x100)] [(0x100, 0x7E)] [(.a, 0x1), (.b, 0x2), (.l,
      0xC), (.sp, 0xFFFFFFF0), (.pc, 0x101)] [(0x18, 0x2), (0x19, 0x0), (0x1A, 0x0), (0x1B, 0x0), (0x1C, 0x1)] (.fault
      (.outOfRange 0xFFFFFFFC) .apply) 0 = true := by decide

/-- ST22: `pop.a`, bytes 82 (R300). -/
theorem test_ST22 :
    vector [(.sp, 0xFFD4)] [(0x0, 0x82)] [(.sp, 0xFFD4)] [] (.fault (.outOfRange 0x10000) .poll) 0 = true := by decide

/-- MS1: `nop`, bytes 87 (R314). -/
theorem test_MS1 :
    vector [(.fl, 0x33)] [(0x0, 0x87)] [(.fl, 0x33), (.pc, 0x1)] [] .run 0 = true := by decide

/-- MS2: `dbg`, bytes 89 (R316). -/
theorem test_MS2 :
    vector [(.fl, 0x33)] [(0x0, 0x89)] [(.fl, 0x33), (.pc, 0x1)] [] .run 0 = true := by decide

/-- MS3: `halt`, bytes 88 (R315). -/
theorem test_MS3 :
    vector [(.fl, 0x33)] [(0x0, 0x88)] [(.fl, 0x33), (.pc, 0x1)] [] .halt 0 = true := by decide

/-- MS5: `sys 0x21`, bytes 76 21 (R311). -/
theorem test_MS5 :
    vector [] [(0x0, 0x76), (0x1, 0x21)] [] [] (.fault (.extensionNotImplemented 0x76) .poll) 0 = true := by decide

/-- MS7: `(bytes)`, bytes 75 10 (R310). -/
theorem test_MS7 :
    vector [] [(0x0, 0x75), (0x1, 0x10)] [] [] (.fault (.illegalInstruction 0x75) .poll) 0 = true := by decide

/-- MS8: `iret`, bytes 77 (R312). -/
theorem test_MS8 :
    vector [] [(0x0, 0x77)] [] [] (.fault (.extensionNotImplemented 0x77) .poll) 0 = true := by decide

/-- MS9: `sret`, bytes 86 (R313). -/
theorem test_MS9 :
    vector [] [(0x0, 0x86)] [] [] (.fault (.extensionNotImplemented 0x86) .poll) 0 = true := by decide

/-! ### The host's two readings -/

theorem test_withFetchWord_runs_first :
    (match step (State.reset.withFetchWord 24 0x050002) with
      | .next t => decide (t.reg .a = 5 ∧ t.reg .pc = 3 ∧ t.status = .run)
      | _ => false) = true := by decide

theorem test_reset_fetches_unassigned_opcode :
    (match step State.reset with
      | .next t => decide (t.status = .fault (.illegalInstruction 0) .poll ∧ t.reg .pc = 0)
      | _ => false) = true := by decide

/-! ### The bus, by the spec's own examples M1 to M16 -/

theorem test_M2_M5_M6 :
    busGet State.reset 0x10000 = .error (.outOfRange 0x10000) ∧
      busGet State.reset 0xF0000004 = .error (.outOfRange 0xF0000004) ∧
      busGet State.reset 0xF00000FF = .error (.outOfRange 0xF00000FF) ∧
      busGet State.reset 0xF0000100 = .error (.outOfRange 0xF0000100) := by decide

theorem test_M3 : memRead State.reset 0xFFFE 4 = .error (.outOfRange 0x10000) := by decide

theorem test_M4 :
    (busWrite State.reset 0xFFFE (bytes32 0xAABBCCDD#32)).2 = some (.outOfRange 0x10000) ∧
      (busWrite State.reset 0xFFFE (bytes32 0xAABBCCDD#32)).1.ram = [(0xFFFE, 0xDD#8), (0xFFFF, 0xCC#8)] := by decide

/-- The reset machine with this offset. -/
def withOffset (x : Word) : State := { State.reset with offset := x }

theorem test_M7 : memRead (withOffset 0x11223344#32) 0xF0000002 4 = .error (.outOfRange 0xF0000004) ∧
    readBytes (withOffset 0x11223344#32) 0xF0000002 2 = .ok [0x22#8, 0x11#8] := by decide

theorem test_M8 : (busWrite State.reset 0xF0000001 [0x80#8]).1.offset = 0x8000#32 ∧
    (busWrite State.reset 0xF0000001 [0x80#8]).1.ram = [] := by decide

theorem test_M9_M10_M11 :
    busGet (withOffset 0x8000#32) 0x8000 = .error (.outOfRange 0x8000) ∧
      busGet (withOffset 0xFFFFFFFF#32) 0 = .error (.outOfRange 0) ∧
      busGet (withOffset 0xFFFFFFFF#32) 1 = .error (.outOfRange 1) := by decide

/-- The reset machine with these commands queued. -/
def withQueue (q : List Command) : State := State.reset.setQueue q

theorem test_M15 :
    (applyPhase (withQueue [.writeByte 0x40 1, .writeByte 0x40 2])).ram = [(0x40, 2)] := by decide

theorem test_M16 :
    (applyPhase (withQueue [.writeDword32 0xF0000000 0x100, .writeByte 0x10 0xEE])).ram = [(0x110, 0xEE)] ∧
      (applyPhase (withQueue [.writeDword32 0xF0000000 0x100, .writeByte 0x10 0xEE])).offset = 0x100 := by decide

theorem test_memory_write_is_canonical :
    Memory.write (Memory.write [] 5 1) 5 0 = [] ∧ Memory.write (Memory.write [] 7 1) 5 2 = [(5, 2), (7, 1)] ∧
      Memory.wf (Memory.write (Memory.write [] 7 1) 5 2) = true := by decide

/-! ### Witnesses: helpers -/

theorem readable_of {s : State} {a n : Nat} {bs : List Byte} (h : readBytes s a n = .ok bs) : Readable s a bs := by
  induction n generalizing a bs with
  | zero => cases h; intro k b hk; simp at hk
  | succ n ih =>
    cases hb : byteAt s a with
    | error f => simp only [readBytes, hb] at h; cases h
    | ok b =>
      cases hr : readBytes s (a + 1) n with
      | error f => simp only [readBytes, hb, hr] at h; cases h
      | ok cs =>
        simp only [readBytes, hb, hr] at h
        cases h
        intro k c hk
        cases k with
        | zero => cases hk; exact hb
        | succ k => rw [show a + (k + 1) = a + 1 + k by omega]; exact ih hr k c (by simpa using hk)

theorem firstUnreadable_of {s : State} {a n k : Nat} {bs : List Byte} {f : Fault} (hk : k < n)
    (h : readBytes s a k = .ok bs) (hl : bs.length = k) (he : byteAt s (a + k) = .error f) : FirstUnreadable s a n k :=
  ⟨hk, fun j hj => ⟨bs[j], readable_of h j _ (List.getElem?_eq_getElem (by omega))⟩,
    fun b hb => by rw [he] at hb; cases hb⟩

/-- RAM bytes 0x100 to 0x103 and an instruction at 0; B points at them, D at the last two bytes of RAM, SP at 0x1000. -/
def sample (code : List Byte) : State :=
  start [(.b, 0x100), (.d, 0xFFFE), (.sp, 0x1000)]
    (code.zipIdx.map (fun c => (c.2, c.1)) ++ [(0x100, 0x80), (0x101, 0x81), (0x102, 0x82), (0x103, 0x83)])

/-- One device of eight bytes at 0xF0000200, a second one at the same place, and the CPU before them. -/
def twoDevices : State :=
  State.reset.setDevices [⟨some 0xF0000100, .cpu⟩, ⟨some 0xF0000200, .other 1 8 []⟩, ⟨some 0xF0000200, .other 2 8 []⟩]

/-! ### Witnesses: encoding -/

theorem witness_DecodeOfEncodeIsTheInstruction :
    ∃ (i : Instr) (get : ByteReader), ∀ k b, (encode i)[k]? = some b → get k = some b :=
  ⟨.movdMM 0x12345678 0x9ABCDEF0, fun k => (encode (.movdMM 0x12345678 0x9ABCDEF0))[k]?, fun _ _ h => h⟩

theorem witness_EncodeOfDecodeIsTheBytesRead : decode (fun _ => some 0x02#8) = .ok (.movRV8 .c 0x02) := by decide

theorem witness_UnassignedOpcodesFault :
    byteAt (sample [0x8C]) ((sample [0x8C]).reg .pc).toNat = .ok 0x8C#8 ∧ unassignedOpcode 0x8C = true ∧
      unassignedOpcode 0xFF = true ∧ unassignedOpcode 0x8B = false ∧ unassignedOpcode 0x0F = false ∧
      unassignedOpcode 0x10 = true ∧ unassignedOpcode 0x19 = true ∧ unassignedOpcode 0x1A = false := by decide

theorem witness_LoneRegisterByteAboveFifteenFaults :
    (Instr.notR .d).loneRegister = some (1, .d) ∧ readBytes (sample [0x41, 0x10]) 0 2 = .ok [0x41#8, 0x10#8] ∧
      (Instr.movbMR 0x30000 .c).loneRegister = some (5, .c) ∧ (encode (.movbMR 0x30000 .c)).take 5 = [0x21, 0, 0, 3, 0] ∧
      readBytes (sample [0x21, 0, 0, 3, 0, 0x1F]) 0 6 = .ok [0x21#8, 0, 0, 3, 0, 0x1F#8] := by decide

theorem witness_RegisterPairByteIsLegalAtEveryValue :
    (Instr.movbII .d .c).operands.map Operand.register? = [some .d, some .c] ∧ (Instr.movbII .d .c).opcode = 0x0D#8 := by
  decide

theorem witness_AssemblerFindsTheRowByKindsAlone :
    assemble ⟨.mov, [.reg .a, .imm8 1]⟩ = some [0x02, 0, 1] ∧ assemble ⟨.mov, [.reg .b, .imm8 2]⟩ = some [0x02, 1, 2] := by
  decide

theorem witness_ImmediateIsNeverADestination :
    (Instr.movRV8 .a 5).operands.head? = some (.reg .a) ∧ (Instr.movRV8 .a 5).mnemonic.writesOperand1 = true ∧
      State.reset.ext = none ∧ State.reset.status = .run ∧ (Operand.imm16 5).kind.isImmediate = true := by decide

theorem witness_OpcodeAloneDecidesTheLength : (Instr.movRV8 .a 5).opcode = (Instr.movRV8 .b 6).opcode := by decide

/-! ### Witnesses: the bus -/

theorem witness_RamByteIsAtAddressPlusOffset :
    State.reset.ram.wf = true ∧ 0xFFFF < 0xF0000000 ∧ 0xFFFF + State.reset.offset.toNat < State.reset.memSize ∧
      State.reset.memSize ≤ 0x10000 + State.reset.offset.toNat ∧
      State.reset.memSize ≤ 0xEFFFFFFF + State.reset.offset.toNat := by decide

theorem witness_OffsetRegisterIsFourByteCells :
    busGet (withOffset 0x11223344#32) 0xF0000000 = .ok 0x44#8 ∧ busGet (withOffset 0x11223344#32) 0xF0000003 = .ok 0x11#8 := by
  decide

theorem witness_GapAccessesFault : 0xF0000004 ≤ 0xF0000004 ∧ 0xF00000FF < 0xF0000100 := by decide

theorem witness_FirstWindowInRegistrationOrderWins :
    twoDevices.devices = [⟨some 0xF0000100, .cpu⟩] ++ ⟨some 0xF0000200, .other 1 8 []⟩ :: [⟨some 0xF0000200, .other 2 8 []⟩] ∧
      (∀ e ∈ [(⟨some 0xF0000100, .cpu⟩ : DeviceEntry)], e.covers 0xF0000207 = false) ∧
      (0xF0000200 : Word).toNat ≤ 0xF0000207 ∧ 0xF0000207 < (0xF0000200 : Word).toNat + 8 ∧
      (∀ e ∈ twoDevices.devices, e.covers 0xF0000208 = false) ∧ (∀ e ∈ twoDevices.devices, e.covers 0xF0000100 = false) := by
  decide

theorem witness_CompositeReadIsLittleEndianAndDoesNotWrap :
    Readable (sample []) 0x100 [0x80] ∧ Readable (sample []) 0x102 [0x82, 0x83] ∧
      Readable (sample []) 0x100 [0x80, 0x81, 0x82, 0x83] ∧ FirstUnreadable (sample []) 0xFFFE 4 2 ∧
      FirstUnreadable (sample []) 0xFFFFFFFF 2 0 ∧ byteAt (sample []) (2 ^ 32) = .error (.outOfRange (2 ^ 32)) :=
  ⟨readable_of (n := 1) (by decide), readable_of (n := 2) (by decide), readable_of (n := 4) (by decide),
    firstUnreadable_of (bs := [0, 0]) (f := .outOfRange 0x10000) (by decide) (by decide) rfl (by decide),
    firstUnreadable_of (bs := []) (f := .outOfRange 0xFFFFFFFF) (by decide) (by decide) rfl (by decide), by decide⟩

theorem witness_CompositeStoreInRamRoundTrips :
    State.reset.ram.wf = true ∧ 0xFFFC + 4 ≤ 0xF0000000 ∧ 0xFFFC + 3 + State.reset.offset.toNat < State.reset.memSize := by
  decide

theorem witness_CompositeWriteKeepsTheBytesBeforeAFault :
    busWrite State.reset 0xFFFE [1, 2] = ((busWrite State.reset 0xFFFE [1, 2]).1, none) ∧
      busSet (busWrite State.reset 0xFFFE [1, 2]).1 0x10000 3 = .error (.outOfRange 0x10000) ∧
      busWrite State.reset (2 ^ 32) [] = (State.reset, none) ∧ busWrite State.reset 0xFFFD [1, 2] =
        ((busWrite State.reset 0xFFFD [1, 2]).1, none) ∧
      ∃ m, busSet (busWrite State.reset 0xFFFD [1, 2]).1 0xFFFF 3 = .ok m :=
  ⟨rfl, rfl, rfl, rfl, _, rfl⟩

/-- For StoresToRegisterAddress, StoresToEmbeddedAddress, JumpCallReturnResults and PushResults, what the apply phase makes of
the one command queued: a store that ends, and one that stops at its second byte. -/
theorem witness_AppliesOne :
    State.reset.queue = [] ∧
      busWrite (State.reset.setQueue []) (0x200 : Word).toNat (Command.writeByte 0x200 0x55).bytes =
        ((busWrite (State.reset.setQueue []) 0x200 [0x55]).1, none) ∧
      busWrite (State.reset.setQueue []) (0xFFFF : Word).toNat (Command.writeWord16 0xFFFF 0xBEEF).bytes =
        ((busWrite (State.reset.setQueue []) 0xFFFF [0xEF]).1, some (.outOfRange 0x10000)) :=
  ⟨rfl, rfl, rfl⟩

theorem witness_LastWriterOfAStepWins :
    (withQueue ([.writeByte 0x40 1] ++ [.writeByte 0x40 2])).queue = [.writeByte 0x40 1] ++ [.writeByte 0x40 2] ∧
      ∃ m, AppliedTo [.writeByte 0x40 1] ((withQueue ([.writeByte 0x40 1] ++ [.writeByte 0x40 2])).setQueue []) m ∧
        (0x40 : Word).toNat + m.offset.toNat < m.memSize :=
  ⟨rfl, _, ⟨_, rfl, rfl⟩, by decide⟩

theorem witness_CommandsUseTheOffsetOfTheirMoment :
    (withQueue [.writeDword32 0xF0000000#32 0x100, .writeByte 0x10 0xEE]).ram.wf = true ∧
      (0x10 : Word).toNat < 0xF0000000 ∧
      (0x10 : Word).toNat + (0x100 : Word).toNat < (withQueue [.writeDword32 0xF0000000#32 0x100, .writeByte 0x10 0xEE]).memSize := by
  decide

theorem witness_ApplyPhaseIsInOrderAndStopsAtAFault :
    AppliedTo [.writeByte 0x40 1] ((withQueue [.writeByte 0x40 1, .writeByte 0x10000 2]).setQueue [])
        (busWrite (withQueue []) 0x40 [1]).1 ∧
      (busWrite (busWrite (withQueue []) 0x40 [1]).1 0x10000 [2]).2 = some (.outOfRange 0x10000) :=
  ⟨⟨_, rfl, rfl⟩, rfl⟩

/-! ### Witnesses: steps, reset and construction -/

/-- For StepKeepsThePlatform too. -/
theorem witness_StepKeepsTheInvariant : State.reset.Inv ∧ ∃ t, step State.reset = .next t :=
  ⟨⟨by decide, by decide, by decide, by decide, rfl, fun _ _ h => by cases h⟩, _, rfl⟩

theorem witness_ConstructionBuildsTheGivenPlatform :
    (∀ e ∈ Platform.default.devices, e.placed = true) ∧ (∃ s, construct Platform.default = .ok s) ∧
      (0xF00000FF : Word).toNat < 0xF0000100 ∧ 2 ^ 32 < (0xFFFFFFFF : Word).toNat + (Device.other 1 2 []).size ∧
      ¬ 2 ^ 32 < (0xFFFFFFFF : Word).toNat + (Device.other 1 1 []).size :=
  ⟨by decide, ⟨_, rfl⟩, by decide, by decide, by decide⟩

/-- Two loads at one index and one at another, and a device before the CPU. -/
def loadedPlatform : Platform :=
  { Platform.default with
    ramInit := [(5, 1), (7, 3), (5, 2)]
    devices := [⟨none, .other 1 8 []⟩, ⟨some 0xF0000100, .cpu⟩] }

/-- The last clause with something loaded: the byte loaded last at an index, one loaded once, one never loaded. -/
theorem witness_ConstructionLoadsRam :
    (∃ s, construct loadedPlatform = .ok s) ∧ loadedPlatform.ramInit = [(5, 1), (7, 3)] ++ (5, 2) :: [] ∧
      (∀ c ∈ ([] : List Host.Cell), c.1 ≠ 5) ∧ 5 < loadedPlatform.memSize ∧
      loadedPlatform.ramInit = [(5, 1)] ++ (7, 3) :: [(5, 2)] ∧ (∀ c ∈ ([(5, 2)] : List Host.Cell), c.1 ≠ 7) ∧
      (∀ c ∈ loadedPlatform.ramInit, c.1 ≠ 6) :=
  ⟨⟨_, rfl⟩, rfl, by decide, by decide, rfl, by decide, by decide⟩

theorem witness_AddDeviceChecksTheBaseAndRegistersLast :
    0xF0000100 ≤ (0xFFFFFFFE : Word).toNat ∧ (0xFFFFFFFE : Word).toNat + (Device.other 1 2 []).size ≤ 2 ^ 32 ∧
      2 ^ 32 < (0xFFFFFFFE : Word).toNat + (Device.other 1 3 []).size ∧ (0xF00000FF : Word).toNat < 0xF0000100 ∧
      (∃ t next, addDevice State.reset (.other 1 2 []) (some 0xFFFFFFFE) = .ok (t, next)) ∧
      ∀ e ∈ State.reset.devices, e.covers ((0xFFFFFFFE : Word).toNat + 1) = false :=
  ⟨by decide, by decide, by decide, by decide, ⟨_, _, rfl⟩, by decide⟩

theorem witness_StepAnswersOnWellFormedTables :
    State.reset.status.isFault = false ∧ deviceTableOk State.reset.devices = true ∧ deviceTableOk twoDevices.devices = true ∧
      deviceTableOk (State.reset.setDevices []).devices = false := by decide

/-- R69: a CPU without a base was not installed by install_cpu; another device may be unmapped; two CPUs are one too many. -/
theorem test_deviceTableOk_cpu_has_a_base :
    deviceTableOk [⟨none, .cpu⟩] = false ∧ deviceTableOk loadedPlatform.devices = true ∧
      deviceTableOk [⟨some 0xF0000100, .cpu⟩, ⟨some 0xF0000200, .cpu⟩] = false := by decide

/-- A poll fault that is an OutOfRange: PC in the gap. -/
theorem witness_StepAnswersOnWellFormedTables_fault :
    (State.reset.setReg .pc 0xF0000010).status.isFault = false ∧
      ∃ t, step (State.reset.setReg .pc 0xF0000010) = .next t ∧ t.status = .fault (.outOfRange 0xF0000010) .poll :=
  ⟨rfl, _, rfl, rfl⟩

theorem witness_CpuFaultsChangeNothing :
    State.reset.status = .run ∧ ∃ t, cpuStep State.reset = .next t ∧ t.status = .fault (.illegalInstruction 0) .poll :=
  ⟨rfl, _, rfl, rfl⟩

theorem witness_FaultIsAbsorbing :
    (pollFault State.reset (.illegalInstruction 0)).status = .fault (.illegalInstruction 0) .poll := rfl

theorem witness_HaltedCpuDoesNothing :
    (State.reset.setStatus .halt).status = .halt ∧ (∃ t, step (State.reset.setStatus .halt) = .next t) ∧
      (State.reset.setStatus .halt).devices = [⟨some 0xF0000100, .cpu⟩] ∧
      deviceTableOk (State.reset.setStatus .halt).devices = true :=
  ⟨rfl, ⟨_, rfl⟩, rfl, by decide⟩

theorem witness_StepRunsTheDecodedInstruction :
    (sample [0x7C, 0x02]).devices = [⟨some 0xF0000100, .cpu⟩] ∧ deviceTableOk (sample [0x7C, 0x02]).devices = true ∧
      (sample [0x7C, 0x02]).status = .run ∧
      Readable (sample [0x7C, 0x02]) ((sample [0x7C, 0x02]).reg .pc).toNat (encode (.pushdR .c)) :=
  ⟨by decide, by decide, by decide, readable_of (n := 2) (by decide)⟩

theorem witness_CpuRunsAtItsPlaceInRegistrationOrder :
    (sample [0x87]).devices = [] ++ ⟨some 0xF0000100, .cpu⟩ :: [] ∧ (sample [0x87]).status = .run ∧
      Readable (sample [0x87]) ((sample [0x87]).reg .pc).toNat (encode .nop) ∧
      pollDevices [] (sample [0x87]).beginStep = (.next (sample [0x87]).beginStep, []) ∧
      (sample [0x87]).beginStep.status = .run ∧ ∃ t, exec .nop (sample [0x87]).beginStep = .next t :=
  ⟨by decide, by decide, readable_of (n := 1) (by decide), rfl, by decide, _, rfl⟩

/-- The reset machine with PC and SP and one byte of memory. -/
def placedAt (pc sp : Word) (a : Nat) (b : Byte) : State := start [(.pc, pc), (.sp, sp)] [(a, b)]

theorem witness_FetchReportsTheLowestFailingByte :
    Readable (sample [0x87]) ((sample [0x87]).reg .pc).toNat (encode .nop) ∧ 1 < (Instr.movRV32 .a 0).length ∧
      byteAt (placedAt 0xFFFF 0 0xFFFF 0x04) 0xFFFF = .ok 0x04#8 ∧ (encode (.movRV32 .a 0))[0]? = some 0x04#8 ∧
      byteAt (placedAt 0xFFFF 0 0xFFFF 0x04) (0xFFFF + 1) = .error (.outOfRange 0x10000) :=
  ⟨readable_of (n := 1) (by decide), by decide, by decide, by decide, by decide⟩

/-! ### Witnesses: what instructions change -/

theorem witness_FlagStorageBitsAreKept :
    State.reset.ext = none ∧ Reg.fl ∉ (Instr.addRR .a .b).destinations ∧ ∃ t, exec (.addRR .a .b) State.reset = .next t :=
  ⟨rfl, by decide, _, rfl⟩

theorem witness_OnlyTheseInstructionsLeaveTheFlags :
    (Instr.addRR .a .b).isExtension = false ∧ Reg.fl ∉ (Instr.addRR .a .b).destinations ∧
      (Instr.addRR .a .b).keepsFlags = false ∧ (Instr.addRR .a .b).mnemonic ≠ .cmp ∧
      (∃ t, exec (.addRR .a .b) State.reset = .next t ∧ t.status.isFault = false) ∧
      (Instr.pushdR .a).keepsFlags = true ∧ Reg.fl ∉ (Instr.pushdR .a).destinations ∧
      (Instr.addRR .pc .b).keepsFlags = true ∧ ∃ t, exec (.pushdR .a) State.reset = .next t :=
  ⟨by decide, by decide, by decide, by decide, ⟨_, rfl, rfl⟩, by decide, by decide, by decide, _, rfl⟩

theorem witness_PcAdvancesByTheLength :
    (Instr.movRV8 .a 5).isExtension = false ∧ (Instr.movRV8 .a 5).mayTransfer = false ∧
      Reg.pc ∉ (Instr.movRV8 .a 5).destinations ∧ ∃ t, exec (.movRV8 .a 5) State.reset = .next t :=
  ⟨by decide, by decide, by decide, _, rfl⟩

theorem witness_EachInstructionRaisesOnlyItsFaults :
    State.reset.status = .run ∧
      (∃ t, exec (.idivRR .a .b) State.reset = .next t ∧ t.status = .fault (.divideByZero 0) .poll) ∧
      (Instr.idivRR .a .b).mayRaise (.divideByZero 0) = true ∧ (Instr.nop).mayRaise (.divideByZero 0) = false ∧
      ∃ t, exec .pushA State.reset = .next t ∧ t.status.isFault = false :=
  ⟨rfl, ⟨_, rfl, rfl⟩, by decide, by decide, _, rfl, rfl⟩

theorem witness_PushAllThenPopAllRestores :
    (placedAt 0 48 0 0x7E).ram.wf = true ∧ (placedAt 0 48 0 0x7E).queue = [] ∧ 48 ≤ ((placedAt 0 48 0 0x7E).reg .sp).toNat ∧
      ((placedAt 0 0x10000 0 0x7E).reg .sp).toNat + (placedAt 0 0x10000 0 0x7E).offset.toNat ≤ (placedAt 0 0x10000 0 0x7E).memSize := by
  decide

theorem witness_CallThenReturnComesBack :
    (placedAt 0 4 0 0x73).ram.wf = true ∧ (placedAt 0 4 0 0x73).queue = [] ∧ 4 ≤ ((placedAt 0 4 0 0x73).reg .sp).toNat ∧
      ((placedAt 0 0x10000 0 0x73).reg .sp).toNat + (placedAt 0 0x10000 0 0x73).offset.toNat ≤ (placedAt 0 0x10000 0 0x73).memSize := by
  decide

theorem witness_StoreIsVisibleAfterItsStepOnly :
    (sample [0x7C, 0x02]).ram.wf = true ∧ (sample [0x7C, 0x02]).devices = [⟨some 0xF0000100, .cpu⟩] ∧
      Readable (sample [0x7C, 0x02]) ((sample [0x7C, 0x02]).reg .pc).toNat (encode (.pushdR .c)) ∧
      ∃ t, exec (.pushdR .c) (sample [0x7C, 0x02]).beginStep = .next t ∧ t.status = .run ∧
        t.queue = [.writeDword32 0xFFC 0] :=
  ⟨by decide, by decide, readable_of (n := 2) (by decide), _, rfl, by decide, by decide⟩

/-- For LoadsReadFourBytesAndZeroExtend, MemoryToMemoryStoresToRegisterAddress and MemoryToMemoryStoresToEmbeddedAddress:
the data read, by register and by embedded address: readable at B,
stopped at its third byte at D. -/
theorem witness_memory_sources :
    Readable (sample []) ((sample []).reg .b).toNat [0x80, 0x81, 0x82, 0x83] ∧
      Readable (sample []) (0x100 : Word).toNat [0x80, 0x81, 0x82, 0x83] ∧
      Readable (sample []) (0xFFFC : Word).toNat [0, 0, 0, 0] ∧
      FirstUnreadable (sample []) ((sample []).reg .d).toNat 4 2 ∧ FirstUnreadable (sample []) (0xFFFD : Word).toNat 4 3 ∧
      FirstUnreadable (sample []) (0x10000 : Word).toNat 4 0 :=
  ⟨readable_of (n := 4) (by decide), readable_of (n := 4) (by decide), readable_of (n := 4) (by decide),
    firstUnreadable_of (bs := [0, 0]) (f := .outOfRange 0x10000) (by decide) (by decide) rfl (by decide),
    firstUnreadable_of (bs := [0, 0, 0]) (f := .outOfRange 0x10000) (by decide) (by decide) rfl (by decide),
    firstUnreadable_of (bs := []) (f := .outOfRange 0x10000) (by decide) (by decide) rfl (by decide)⟩

theorem witness_MulDivModResults :
    (sample []).reg .b ≠ 0 ∧ (sample []).reg .a = 0 ∧ (1 : BitVec 8) ≠ 0 ∧ (1 : BitVec 16) ≠ 0 ∧ (1 : Word) ≠ 0 := by decide

/-- For JumpCallReturnResults and PopResults, the slots of `ret` and of the pops: readable at SP, the last byte of RAM, and one past it. -/
theorem witness_stack_slots :
    Readable (sample []) ((sample []).reg .sp).toNat [0, 0, 0, 0] ∧ Readable (sample []) ((sample []).reg .sp).toNat [0, 0] ∧
      Readable (placedAt 0 0xFFFF 0xFFFF 0x7E) ((placedAt 0 0xFFFF 0xFFFF 0x7E).reg .sp).toNat [0x7E] ∧
      FirstUnreadable (placedAt 0 0xFFFF 0xFFFF 0x7E) ((placedAt 0 0xFFFF 0xFFFF 0x7E).reg .sp).toNat 2 1 ∧
      FirstUnreadable (placedAt 0 0xFFFF 0xFFFF 0x7E) ((placedAt 0 0xFFFF 0xFFFF 0x7E).reg .sp).toNat 4 1 ∧
      FirstUnreadable (placedAt 0 0x10000 0xFFFF 0x7E) ((placedAt 0 0x10000 0xFFFF 0x7E).reg .sp).toNat 1 0 :=
  ⟨readable_of (n := 4) (by decide), readable_of (n := 2) (by decide), readable_of (n := 1) (by decide),
    firstUnreadable_of (bs := [0x7E]) (f := .outOfRange 0x10000) (by decide) (by decide) rfl (by decide),
    firstUnreadable_of (bs := [0x7E]) (f := .outOfRange 0x10000) (by decide) (by decide) rfl (by decide),
    firstUnreadable_of (bs := []) (f := .outOfRange 0x10000) (by decide) (by decide) rfl (by decide)⟩

theorem witness_PushAllPopAllResults :
    (∀ n, n < 12 → memRead (sample []) ((sample []).reg .sp + BitVec.ofNat 32 (4 * n)).toNat 4 = .ok 0) ∧
      (∀ m, m < 11 → memRead (placedAt 0 0xFFD4 0 0) ((placedAt 0 0xFFD4 0 0).reg .sp + BitVec.ofNat 32 (4 * m)).toNat 4 = .ok 0) ∧
      FirstUnreadable (placedAt 0 0xFFD4 0 0) ((placedAt 0 0xFFD4 0 0).reg .sp + BitVec.ofNat 32 (4 * 11)).toNat 4 0 :=
  ⟨by decide, by decide, firstUnreadable_of (bs := []) (f := .outOfRange 0x10000) (by decide) (by decide) rfl (by decide)⟩

theorem witness_SystemInstructionResults : State.reset.ext = none := rfl

/-- The machine after reset with an extension. -/
def extended : State := { State.reset with ext := some 0 }

/-- An extension is opaque: whatever it is, one of the three clauses applies. -/
theorem witness_SuppliedExtensionDecidesTheOutcome :
    extended.ext = some 0 ∧
      ((∃ f, firstFault extended (Config.extReads 0 extended.regs (busView extended) (.sysV8 0x21)) = some f) ∨
        firstFault extended (Config.extReads 0 extended.regs (busView extended) (.sysV8 0x21)) = none ∧
          ((∃ f, Config.extSem 0 extended.regs (busView extended) (.sysV8 0x21) = .error f) ∨
            ∃ x, Config.extSem 0 extended.regs (busView extended) (.sysV8 0x21) = .ok x)) :=
  ⟨rfl, match firstFault extended (Config.extReads 0 extended.regs (busView extended) (.sysV8 0x21)) with
    | some f => .inl ⟨f, rfl⟩
    | none => .inr ⟨rfl, match Config.extSem 0 extended.regs (busView extended) (.sysV8 0x21) with
      | .error f => .inl ⟨f, rfl⟩
      | .ok x => .inr ⟨x, rfl⟩⟩⟩

/-- R321: of a list of reads the first that fails decides, at its lowest byte that cannot be read; a readable list has none. -/
theorem test_firstFault :
    firstFault (sample []) [⟨0x100, .w32⟩, ⟨0xFFFE, .w32⟩, ⟨0xF0000004, .w8⟩] = some (.outOfRange 0x10000) ∧
      firstFault (sample []) [⟨0xFFFFFFFF, .w16⟩] = some (.outOfRange 0xFFFFFFFF) ∧
      firstFault (sample []) [⟨0x100, .w32⟩, ⟨0xF0000000, .w32⟩] = none := by decide

end Sys2Proof.Machine
end

/-! PROOFS. The extension instructions and the invariant of the global step. -/

namespace Sys2Proof.Machine

/-! ### The extension instructions (R305) -/

/-- `sys`, `iret` and `sret` are one operation, told apart by the opcode and the length of the instruction (R305). -/
theorem exec_of_isExtension {i : Instr} (h : i.isExtension = true) (s : State) :
    exec i s = extension i i.opcode i.length s := by
  cases i
  case sysR r => rfl
  case sysV8 v => rfl
  case iret => rfl
  case sret => rfl
  all_goals exact absurd h Bool.noConfusion

section Extension
variable {s : State} {id : Nat} {i : Instr}

/-- With no extension the instruction is a fault that names its opcode (R325). -/
theorem extension_of_none (hx : s.ext = none) (op : Byte) (len : Nat) :
    extension i op len s = .next (pollFault s (.extensionNotImplemented op)) := by
  simp only [extension, hx, takeFault_poll]

/-- A read of the extension that fails is the extension's fault (R321). -/
theorem extension_of_readFault {f : Fault} (hx : s.ext = some id)
    (hf : firstFault s (Config.extReads id s.regs (busView s) i) = some f) (op : Byte) (len : Nat) :
    extension i op len s = .next (pollFault s f) := by
  simp only [extension, hx, hf, takeFault_poll]

/-- With every read answered, the fault that the extension answers is taken. -/
theorem extension_of_semFault {f : ExtFault} (hx : s.ext = some id)
    (hf : firstFault s (Config.extReads id s.regs (busView s) i) = none)
    (hr : Config.extSem id s.regs (busView s) i = .error f) (op : Byte) (len : Nat) :
    extension i op len s = .next (pollFault s f.toFault) := by
  simp only [extension, hx, hf, hr, takeFault_poll]

/-- With every read answered, what the extension answers is the result: its registers, PC advanced from the value among
them unless it transferred control, and its commands appended. -/
theorem extension_of_result {x : ExtResult} (hx : s.ext = some id)
    (hf : firstFault s (Config.extReads id s.regs (busView s) i) = none)
    (hr : Config.extSem id s.regs (busView s) i = .ok x) (op : Byte) (len : Nat) :
    ∃ t, extension i op len s = .next t ∧ t.status = s.status ∧ BusKept s t x.commands ∧
      ∀ r, t.reg r = if r = .pc ∧ x.transferred = false then x.regs.get .pc + BitVec.ofNat 32 len else x.regs.get r := by
  simp only [extension, hx, hf, hr]
  refine ⟨_, rfl, ?_⟩
  cases x.transferred with
  | true => exact ⟨rfl, busKept_of rfl rfl rfl rfl rfl rfl rfl, fun r => by simp⟩
  | false => exact ⟨rfl, busKept_of rfl rfl rfl rfl rfl rfl rfl, fun r => by simp [reg_advance]⟩

end Extension

/-- Settles O60: `exec` is `extension`, whose three outcomes with an extension installed are the three clauses. -/
theorem suppliedExtensionDecidesTheOutcome : Obligations.SuppliedExtensionDecidesTheOutcome := by
  intro s id len i r1 v8 hx hi
  have he : exec i s = extension i i.opcode len s := by
    rcases hi with ⟨rfl | rfl, rfl⟩ | ⟨rfl | rfl, rfl⟩ <;> exact exec_of_isExtension rfl s
  rw [he]
  refine ⟨fun f hf => ?_, fun f hf hr => extension_of_semFault hx hf hr _ _,
    fun x hf hr => extension_of_result hx hf hr _ _⟩
  obtain ⟨a, rfl, hc⟩ := firstFault_caused hf
  exact ⟨extension_of_readFault hx hf _ _, a, rfl, hc.unreadable a rfl⟩

/-! ### What one poll can do -/

/-- A poll takes a fault that has its cause, which discards the queue, or it completes: the bus is kept, commands are
appended, and the status stays or becomes HALT (R142, R306, R326). -/
inductive PollOutcome (s : State) : State → Prop
  | faulted (f : Fault) : f.Caused s → PollOutcome s (pollFault s f)
  | completed {t : State} (cs : List Command) : BusKept s t cs → t.status = s.status ∨ t.status = .halt → PollOutcome s t

/-- A poll that does nothing. -/
theorem PollOutcome.refl (s : State) : PollOutcome s s :=
  .completed [] (busKept_of rfl rfl rfl rfl rfl rfl (List.append_nil _).symm) (.inl rfl)

/-- A poll that brings the status to FAULT leaves an empty queue (R76). -/
theorem PollOutcome.queue_of_fault {s t : State} (h : PollOutcome s t) (hs : s.status.isFault = false)
    (ht : t.status.isFault = true) : t.queue = [] := by
  cases h with
  | faulted f _ => rfl
  | completed cs _ hst =>
    rcases hst with e | e
    · rw [e, hs] at ht; cases ht
    · rw [e] at ht; cases ht

theorem Does.pollOutcome {i : Instr} {s t : State} (d : Does i s t) : PollOutcome s t := by
  cases d with
  | faults f _ hc => exact .faulted f hc
  | writes _ _ _ _ _ h => exact .completed _ h.bus (.inl h.status)
  | stores _ _ _ h => exact .completed _ h.bus (.inl h.status)
  | compares _ _ _ _ h => exact .completed _ h.bus (.inl h.status)
  | raw _ _ h => exact .completed _ h.bus (.inl h.status)
  | transfers _ _ _ h => exact .completed _ h.bus (.inl h.status)
  | halts _ => exact .completed [] (busKept_of rfl rfl rfl rfl rfl rfl (by simp)) (.inr rfl)

theorem extension_pollOutcome (i : Instr) (op : Byte) (len : Nat) (s : State) :
    ∃ t, extension i op len s = .next t ∧ PollOutcome s t := by
  cases hx : s.ext with
  | none => exact ⟨_, extension_of_none hx op len, .faulted _ ⟨rfl, fun _ e => by cases e⟩⟩
  | some id =>
    cases hf : firstFault s (Config.extReads id s.regs (busView s) i) with
    | some f =>
      obtain ⟨a, rfl, hc⟩ := firstFault_caused hf
      exact ⟨_, extension_of_readFault hx hf op len, .faulted _ hc⟩
    | none =>
      cases hr : Config.extSem id s.regs (busView s) i with
      | error f => exact ⟨_, extension_of_semFault hx hf hr op len, .faulted _ (f.caused s)⟩
      | ok x =>
        obtain ⟨t, ht, hst, hb, _⟩ := extension_of_result hx hf hr op len
        exact ⟨t, ht, .completed _ hb (.inl hst)⟩

/-- Every instruction, an extension's included, is a poll. -/
theorem exec_pollOutcome (i : Instr) (s : State) : ∃ t, exec i s = .next t ∧ PollOutcome s t := by
  cases hx : i.isExtension with
  | true =>
    rw [exec_of_isExtension hx]
    exact extension_pollOutcome i _ _ s
  | false =>
    obtain ⟨t, ht, hd⟩ := exec_does i s (.inr hx)
    exact ⟨t, ht, hd.pollOutcome⟩

theorem cpuPoll_pollOutcome (s : State) : ∃ t, cpuPoll s = .next t ∧ PollOutcome s t := by
  unfold cpuPoll
  split
  case h_1 =>
    cases hf : fetch s with
    | ok i => simpa only [cpuStep, hf] using exec_pollOutcome i s
    | error f => exact ⟨_, by simp only [cpuStep, hf, takeFault_poll], .faulted f (fetch_caused hf)⟩
  case h_2 => exact ⟨s, rfl, .refl s⟩
  case h_3 => exact ⟨s, rfl, .refl s⟩

theorem pollEntry_pollOutcome (d : DeviceEntry) (s : State) :
    ∃ t e, pollEntry d s = (.next t, e) ∧ PollOutcome s t := by
  obtain ⟨base, dev⟩ := d
  cases dev with
  | cpu =>
    obtain ⟨t, ht, ho⟩ := cpuPoll_pollOutcome s
    exact ⟨t, _, by simp only [pollEntry, ht]; rfl, ho⟩
  | other id size st =>
    cases hf : firstFault s (Config.deviceReads id st (busView s) (Config.elapsed s.draws)) with
    | some f =>
      obtain ⟨a, rfl, hc⟩ := firstFault_caused hf
      exact ⟨_, _, by simp only [pollEntry, hf, takeFault_poll]; rfl, .faulted _ hc⟩
    | none =>
      refine ⟨_, _, by simp only [pollEntry, hf]; rfl, ?_⟩
      exact .completed _ (busKept_of rfl rfl rfl rfl rfl rfl rfl) (.inl rfl)

/-- A poll phase that ends in FAULT leaves an empty queue, whichever entry raised (R76). -/
theorem pollDevices_queue_of_fault {ds es : List DeviceEntry} {s t : State} (h : pollDevices ds s = (.next t, es))
    (hs : s.status.isFault = false) (ht : t.status.isFault = true) : t.queue = [] := by
  induction ds generalizing s es with
  | nil =>
    cases h
    rw [hs] at ht
    cases ht
  | cons d ds ih =>
    obtain ⟨u, e, hp, ho⟩ := pollEntry_pollOutcome d s
    simp only [pollDevices, hp] at h
    cases hu : u.status.isFault with
    | true =>
      simp only [hu, if_true] at h
      cases h
      exact ho.queue_of_fault hs hu
    | false =>
      simp only [hu, Bool.false_eq_true, if_false, Prod.mk.injEq] at h
      exact ih (Prod.ext h.1 rfl) hu

/-! ### The invariant of the global step -/

/-- A step that answers is no step at all in FAULT (R327), or else the poll phase of a well-formed table and what follows
it (R70). -/
theorem step_next_cases {s t : State} (h : step s = .next t) :
    (s.status.isFault = true ∧ t = s) ∨
    (s.status.isFault = false ∧ deviceTableOk s.devices = true ∧
      ∃ u es, pollDevices s.devices s.beginStep = (.next u, es) ∧ t = endStep (u.setDevices es)) := by
  unfold step globalStep at h
  split at h
  case isTrue hs =>
    cases h
    exact .inl ⟨hs, rfl⟩
  case isFalse hs =>
    split at h
    case isTrue hd =>
      obtain ⟨u, es, hp, _⟩ := pollDevices_keeps s.devices s.beginStep
      simp only [hp] at h
      cases h
      exact .inr ⟨by simpa using hs, hd, u, es, hp, rfl⟩
    case isFalse => cases h

/-- `State.Inv` between the poll phase and the apply phase: the queue may hold commands, but not in FAULT (R76). -/
structure State.InvPolled (s : State) : Prop where
  ramCanonical : s.ram.wf = true
  ramBelow : s.ram.below s.memSize = true
  memSizeLegal : s.memSize ≤ Config.memSizeMax
  tableOk : deviceTableOk s.devices = true
  queueOfFault : s.status.isFault = true → s.queue = []
  faultRaisable : ∀ f phase, s.status = .fault f phase → f.raisable = true

/-- The poll phase takes the invariant to the one before the apply phase. -/
theorem State.Inv.polled {s u : State} {es : List DeviceEntry} (hi : s.Inv) (hs : s.status.isFault = false)
    (hp : pollDevices s.devices s.beginStep = (.next u, es)) : (u.setDevices es).InvPolled := by
  obtain ⟨u', es', hp', hk, hshape⟩ := pollDevices_keeps s.devices s.beginStep
  cases hp.symm.trans hp'
  have hram : u.ram = s.ram := hk.ram
  have hsize : u.memSize = s.memSize := hk.memSize
  constructor
  case ramCanonical => simpa [hram] using hi.ramCanonical
  case ramBelow => simpa [hram, hsize] using hi.ramBelow
  case memSizeLegal => simpa [hsize] using hi.memSizeLegal
  case tableOk => simpa [deviceTableOk_of_shape hshape] using hi.tableOk
  case queueOfFault => exact pollDevices_queue_of_fault (s := s.beginStep) (t := u) hp hs
  case faultRaisable => exact fun f p e => (hk.fault f p e).elim (hi.faultRaisable f p) Fault.Caused.raisable

/-- What follows the poll phase restores the invariant: a fault of the poll phase has left no command, and the apply phase
leaves none (R75, R76). -/
theorem State.InvPolled.endStep {s : State} (hi : s.InvPolled) : (endStep s).Inv := by
  unfold Machine.endStep
  split
  case isTrue hs =>
    exact ⟨hi.ramCanonical, hi.ramBelow, hi.memSizeLegal, hi.tableOk, hi.queueOfFault hs, hi.faultRaisable⟩
  case isFalse =>
    have hk : ApplyKeeps (s.setQueue []) (applyPhase s) := applyQueue_keeps _ _
    constructor
    case ramCanonical => exact hk.ramCanonical hi.ramCanonical
    case ramBelow => exact hk.ramBelow hi.ramBelow
    case memSizeLegal => exact hk.memSize ▸ hi.memSizeLegal
    case tableOk => exact (deviceTableOk_of_shape hk.shape).trans hi.tableOk
    case queueEmpty => exact hk.queue rfl
    case faultRaisable => exact fun f p e => (hk.fault f p e).elim (hi.faultRaisable f p) And.left

/-- Settles O20: by the two phases of the step. -/
theorem stepKeepsTheInvariant : Obligations.StepKeepsTheInvariant := by
  intro s t hi hstep
  rcases step_next_cases hstep with ⟨_, rfl⟩ | ⟨hs, _, u, es, hp, rfl⟩
  · exact hi
  · exact (hi.polled hs hp).endStep

end Sys2Proof.Machine

/-! PROOFS. The state after reset, what a step and an instruction leave unchanged, and the fetch. -/

namespace Sys2Proof.Machine

/-! ### The state after reset (R41, R350) -/

/-- Settles O21: memory is empty, the table holds the CPU alone, and the status is RUN. -/
theorem resetMeetsTheInvariant : Obligations.ResetMeetsTheInvariant := by
  constructor
  case ramCanonical => rfl
  case ramBelow => rfl
  case memSizeLegal => decide
  case tableOk => decide
  case queueEmpty => rfl
  case faultRaisable => exact fun _ _ e => by cases e

/-- Settles O22: each register by its field, and the default construction by running it. -/
theorem resetLeavesZerosAndRun : Obligations.ResetLeavesZerosAndRun := by
  refine ⟨fun r => ?_, rfl, fun n => rfl, rfl, rfl, rfl⟩
  cases r <;> rfl

/-! ### The platform (R35, R64) -/

/-- What follows the poll phase keeps the platform, whether or not the phase ended in FAULT (R75, R76). -/
theorem endStep_platform (s : State) : (endStep s).memSize = s.memSize ∧ (endStep s).ext = s.ext ∧
    (endStep s).devices.map DeviceEntry.shape = s.devices.map DeviceEntry.shape := by
  unfold endStep
  split
  case isTrue => exact ⟨rfl, rfl, rfl⟩
  case isFalse =>
    have hk : ApplyKeeps (s.setQueue []) (applyPhase s) := applyQueue_keeps _ _
    exact ⟨hk.memSize, hk.ext, hk.shape⟩

/-- Settles O25: the poll phase keeps the shape of the table it puts into the state, and what follows keeps it too. -/
theorem stepKeepsThePlatform : Obligations.StepKeepsThePlatform := by
  intro s t hstep
  rcases step_next_cases hstep with ⟨_, rfl⟩ | ⟨_, _, u, es, hp, rfl⟩
  · exact ⟨rfl, rfl, rfl⟩
  · obtain ⟨u', es', hp', hk, hshape⟩ := pollDevices_keeps s.devices s.beginStep
    cases hp.symm.trans hp'
    obtain ⟨hsize, hext, hdevices⟩ := endStep_platform (u.setDevices es)
    exact ⟨hsize.trans hk.memSize, hext.trans hk.ext, hdevices.trans hshape⟩

/-! ### What an instruction leaves unchanged -/

/-- Settles O26: an instruction is a poll, and a poll that completes keeps the bus. -/
theorem execOnlyQueuesItsStores : Obligations.ExecOnlyQueuesItsStores := by
  intro i s
  obtain ⟨t, ht, ho⟩ := exec_pollOutcome i s
  refine ⟨t, ht, ?_⟩
  cases ho with
  | faulted f _ => exact .inl ⟨f, rfl⟩
  | completed cs hb _ => exact .inr ⟨cs, hb⟩

/-- What an instruction without an extension's effect answers is described by `Does`. -/
theorem Does.of_exec {i : Instr} {s t : State} (hx : s.ext = none ∨ i.isExtension = false) (h : exec i s = .next t) :
    Does i s t := by
  obtain ⟨u, hu, hd⟩ := exec_does i s hx
  cases hu.symm.trans h
  exact hd

/-- Raw writes to other registers leave a register alone. -/
theorem finalValue_of_ne {ws : List (Reg × Word)} {r : Reg} (h : ∀ w ∈ ws, w.1 ≠ r) (s : State) :
    finalValue s ws r = s.reg r := by
  rw [← reg_setRegs]
  induction ws generalizing s with
  | nil => rfl
  | cons w ws ih =>
    have hw : r ≠ w.1 := fun e => h w (List.mem_cons_self ..) e.symm
    exact (ih (fun v hv => h v (List.mem_cons_of_mem _ hv)) _).trans (reg_setReg_ne s hw w.2)

/-- A raw result leaves a register that is no destination, nor SP, but for the advance of PC. -/
theorem RawResult.reg_of_not_mem {s t : State} {ws : List (Reg × Word)} {len : Nat} {cs : List Command} {ds : List Reg}
    {r : Reg} (h : RawResult s t ws len cs) (hw : ∀ w ∈ ws, w.1 = .sp ∨ w.1 ∈ ds) (hsp : r ≠ .sp) (hr : r ∉ ds) :
    t.reg r = s.reg r + if r = .pc then BitVec.ofNat 32 len else 0 := by
  rw [h.regs, finalValue_of_ne]
  rintro w hm rfl
  exact (hw w hm).elim hsp hr

/-! ### The flags word (R28, R29, R362) -/

/-- What an instruction that does not name FL as a destination does to FL: a fault or an instruction of the list leaves it,
and any other makes one flag update, which clears GT and LT unless it is a comparison. -/
inductive FlagOutcome (i : Instr) (s t : State) : Prop
  | faulted : t.status.isFault = true → t.reg .fl = s.reg .fl → FlagOutcome i s t
  | kept : i.keepsFlags = true → t.reg .fl = s.reg .fl → FlagOutcome i s t
  | updated {v : Word} {n : Nat} {y ov gt lt : Bool} : i.keepsFlags = false →
      FlagsAre (s.reg .fl) (t.reg .fl) v n y ov gt lt → i.mnemonic = .cmp ∨ gt = false ∧ lt = false → FlagOutcome i s t

theorem Does.flagOutcome {i : Instr} {s t : State} (d : Does i s t) (hfl : Reg.fl ∉ i.destinations) :
    FlagOutcome i s t := by
  cases d with
  | faults f _ _ => exact .faulted rfl rfl
  | writes dst v n y ov h hd _ _ hk _ =>
    have hne : dst ≠ .fl := fun e => hfl (by rw [hd, e]; exact List.mem_singleton.2 rfl)
    by_cases hpc : dst = .pc
    · exact .kept (by rw [hk, hpc]; rfl) (h.flagsOfPc hpc)
    · exact .updated (by rw [hk, decide_eq_false hpc]) (h.flags hpc hne) (.inr ⟨rfl, rfl⟩)
  | stores v n c h _ _ _ hk _ => exact .updated hk h.flags (.inr ⟨rfl, rfl⟩)
  | compares a b y ov h _ _ _ hk hcmp => exact .updated hk h.flags (.inl hcmp)
  | raw ws cs h hw _ _ hk => exact .kept hk (by simpa using h.reg_of_not_mem hw (by decide) hfl)
  | transfers target sp cs h _ _ _ hk => exact .kept hk (h.regs .fl (by decide))
  | halts hi => exact .kept (by rw [hi]; rfl) (by simp [reg_advance])

/-- Settles O34: FL is left, or updated by one flag update, which keeps these bits. -/
theorem flagStorageBitsAreKept : Obligations.FlagStorageBitsAreKept := by
  intro i s t hx hfl ht
  cases (Does.of_exec hx ht).flagOutcome hfl with
  | faulted _ h => rw [h]
  | kept _ h => rw [h]
  | updated _ h _ => exact h.rest

/-- Settles O35: an instruction of the list makes no flag update, and the update of any other but `cmp` clears GT and LT. -/
theorem onlyTheseInstructionsLeaveTheFlags : Obligations.OnlyTheseInstructionsLeaveTheFlags := by
  intro i s t hx hfl ht
  cases (Does.of_exec (.inr hx) ht).flagOutcome hfl with
  | faulted hf h => exact ⟨fun _ => h, fun _ _ hn => by simp [hf] at hn⟩
  | kept hk h => exact ⟨fun _ => h, fun hn => by simp [hk] at hn⟩
  | updated hk h hc =>
    refine ⟨fun hn => by simp [hk] at hn, fun _ hcmp _ => ?_⟩
    obtain ⟨hgt, hlt⟩ := hc.resolve_left hcmp
    exact ⟨h.greater.trans hgt, h.less.trans hlt⟩

/-! ### The program counter (R152) -/

/-- Settles O36: each shape of effect but a control transfer advances PC by the length. -/
theorem pcAdvancesByTheLength : Obligations.PcAdvancesByTheLength := by
  intro i s t hx hm hpc ht
  cases Does.of_exec (.inr hx) ht with
  | faults f _ _ => exact .inr ⟨f, rfl⟩
  | writes dst v n y ov h hd _ _ _ _ =>
    have hne : dst ≠ .pc := fun e => hpc (by rw [hd, e]; exact List.mem_singleton.2 rfl)
    exact .inl (by rw [h.pc, if_neg hne])
  | stores _ _ _ h _ _ _ _ _ => exact .inl h.pc
  | compares _ _ _ _ h _ _ _ _ _ => exact .inl h.pc
  | raw ws cs h hw _ _ _ => exact .inl (h.reg_of_not_mem hw (by decide) hpc)
  | transfers _ _ _ _ _ htr _ _ => rw [hm] at htr; cases htr
  | halts hi => subst hi; exact .inl (reg_advance _ 1 .pc)

end Sys2Proof.Machine

namespace Sys2Proof

/-! ### The bytes of an instruction in its format (R103) -/

/-- An instruction of opcode `op` in a format, and its bytes. -/
inductive HasFormat (op : Byte) : Form → Instr → List Byte → Prop
  | none (mk : Instr) : HasFormat op (.none mk) mk [op]
  | r (mk : Reg → Instr) (r : Reg) : HasFormat op (.r mk) (mk r) [op, 0#4 ++ r.index]
  | v8 (mk : BitVec 8 → Instr) (v : BitVec 8) : HasFormat op (.v8 mk) (mk v) [op, v]
  | v16 (mk : BitVec 16 → Instr) (v : BitVec 16) : HasFormat op (.v16 mk) (mk v) (op :: bytes16 v)
  | v32 (mk : Word → Instr) (v : Word) : HasFormat op (.v32 mk) (mk v) (op :: bytes32 v)
  | rr (mk : Reg → Reg → Instr) (r1 r2 : Reg) : HasFormat op (.rr mk) (mk r1 r2) [op, r1.index ++ r2.index]
  | rV8 (mk : Reg → BitVec 8 → Instr) (r : Reg) (v : BitVec 8) : HasFormat op (.rV8 mk) (mk r v) [op, 0#4 ++ r.index, v]
  | rV16 (mk : Reg → BitVec 16 → Instr) (r : Reg) (v : BitVec 16) :
      HasFormat op (.rV16 mk) (mk r v) (op :: (0#4 ++ r.index) :: bytes16 v)
  | rV32 (mk : Reg → Word → Instr) (r : Reg) (v : Word) :
      HasFormat op (.rV32 mk) (mk r v) (op :: (0#4 ++ r.index) :: bytes32 v)
  | rM (mk : Reg → Word → Instr) (r : Reg) (a : Word) :
      HasFormat op (.rM mk) (mk r a) (op :: (0#4 ++ r.index) :: bytes32 a)
  | mR (mk : Word → Reg → Instr) (a : Word) (r : Reg) :
      HasFormat op (.mR mk) (mk a r) (op :: bytes32 a ++ [0#4 ++ r.index])
  | mV8 (mk : Word → BitVec 8 → Instr) (a : Word) (v : BitVec 8) : HasFormat op (.mV8 mk) (mk a v) (op :: bytes32 a ++ [v])
  | mV16 (mk : Word → BitVec 16 → Instr) (a : Word) (v : BitVec 16) :
      HasFormat op (.mV16 mk) (mk a v) (op :: bytes32 a ++ bytes16 v)
  | mV32 (mk : Word → Word → Instr) (a v : Word) : HasFormat op (.mV32 mk) (mk a v) (op :: bytes32 a ++ bytes32 v)
  | mM (mk : Word → Word → Instr) (a b : Word) : HasFormat op (.mM mk) (mk a b) (op :: bytes32 a ++ bytes32 b)

/-- The opcode of every instruction has a row, and the instruction's encoding is in the format of that row (R103, R111).
The opcode is written out first, so that it is not computed again for each row that `formOf` tries. -/
theorem hasFormat_encode (i : Instr) : ∃ form, formOf i.opcode = some form ∧ HasFormat i.opcode form i (encode i) := by
  cases i <;> dsimp only [Instr.opcode] <;> exact ⟨_, rfl, by constructor⟩

/-- The encoding is as long as the instruction (R100). -/
theorem length_encode (i : Instr) : (encode i).length = i.length := by
  cases i <;> rfl

/-- Bytes in the format of their opcode's row decode to their instruction (R104). -/
theorem decode_of_hasFormat {op : Byte} {form : Form} {i : Instr} {bs : List Byte} {get : ByteReader}
    (h : HasFormat op form i bs) (hf : formOf op = some form) (hg : Agrees get bs) : decode get = .ok i := by
  cases h with
  | none => exact decode_none hf hg
  | r => exact decode_r hf hg
  | v8 => exact decode_v8 hf hg
  | v16 => exact decode_v16 hf hg
  | v32 => exact decode_v32 hf hg
  | rr => exact decode_rr hf hg
  | rV8 => exact decode_rV8 hf hg
  | rV16 => exact decode_rV16 hf hg
  | rV32 => exact decode_rV32 hf hg
  | rM => exact decode_rM hf hg
  | mR => exact decode_mR hf hg
  | mV8 => exact decode_mV8 hf hg
  | mV16 => exact decode_mV16 hf hg
  | mV32 => exact decode_mV32 hf hg
  | mM => exact decode_mM hf hg

theorem decode_of_agrees_encode {i : Instr} {get : ByteReader} (hg : Agrees get (encode i)) : decode get = .ok i := by
  obtain ⟨form, hf, h⟩ := hasFormat_encode i
  exact decode_of_hasFormat h hf hg

/-! ### Decoding bytes that are cut off (R58, R104) -/

/-- `x'` and `x` are one decoder that reads the bytes from `p` up to `q` in order, of a full reader and of one that has the
same bytes below `k` and no byte `k`: a value of the first is one of the second too, or the second stops at byte `k`. -/
def CutAt {α : Type} (k p q : Nat) (x' x : Except DecodeError α) : Prop :=
  ∀ a, x' = .ok a → p ≤ q ∧ (p ≤ k → x = if k < q then .error (.unreadable k) else .ok a)

section Cut
variable {α β : Type} {k p m q : Nat} {full get : ByteReader}

/-- A decoder that has read all its bytes. -/
theorem cutAt_ok (a : α) : CutAt k q q (.ok a) (.ok a) := fun b hb =>
  ⟨Nat.le_refl q, fun hk => by rw [if_neg (Nat.not_lt.2 hk), hb]⟩

/-- Of two decoders in a row the second reads on where the first ended, unless the first stopped. -/
theorem CutAt.bind {x' x : Except DecodeError α} {g' g : α → Except DecodeError β} (hx : CutAt k p m x' x)
    (hg : ∀ a, CutAt k m q (g' a) (g a)) : CutAt k p q (x' >>= g') (x >>= g) := by
  intro b hb
  cases x' with
  | error e => cases hb
  | ok a =>
    obtain ⟨hpm, hxa⟩ := hx a rfl
    obtain ⟨hmq, hgb⟩ := hg a b hb
    refine ⟨Nat.le_trans hpm hmq, fun hk => ?_⟩
    rw [hxa hk]
    by_cases hm : k < m
    · rw [if_pos hm, if_pos (Nat.lt_of_lt_of_le hm hmq)]
      rfl
    · rw [if_neg hm]
      exact hgb (Nat.not_lt.1 hm)

variable (hg : ∀ j b, j < k → full j = some b → get j = some b) (hn : get k = none)
include hg hn

theorem readByte_cut (j : Nat) : CutAt k j (j + 1) (readByte full j) (readByte get j) := by
  intro b hb
  refine ⟨Nat.le_succ j, fun hk => ?_⟩
  rcases Nat.eq_or_lt_of_le hk with rfl | hlt
  · rw [if_pos (Nat.lt_succ_self j), readByte, hn]
  · have hf : full j = some b := by
      unfold readByte at hb
      split at hb
      · cases hb
        assumption
      · cases hb
    rw [if_neg (by omega), readByte_of (hg j b hlt hf)]

theorem readField16_cut (j : Nat) : CutAt k j (j + 2) (readField16 full j) (readField16 get j) :=
  (readByte_cut hg hn j).bind fun _ => (readByte_cut hg hn (j + 1)).bind fun _ => cutAt_ok _

theorem readField32_cut (j : Nat) : CutAt k j (j + 4) (readField32 full j) (readField32 get j) :=
  (readByte_cut hg hn j).bind fun _ => (readByte_cut hg hn (j + 1)).bind fun _ =>
    (readByte_cut hg hn (j + 2)).bind fun _ => (readByte_cut hg hn (j + 3)).bind fun _ => cutAt_ok _

theorem readLoneReg_cut (op : Byte) (j : Nat) : CutAt k j (j + 1) (readLoneReg op full j) (readLoneReg op get j) :=
  (readByte_cut hg hn j).bind fun b => by
    split
    · exact cutAt_ok _
    · exact fun _ h => by cases h

/-- In every format the operand bytes are read in order, each once, up to the end of the instruction (R103, R104). -/
theorem form_decode_cut {op : Byte} {form : Form} {i : Instr} {bs : List Byte} (h : HasFormat op form i bs) :
    CutAt k 1 bs.length (form.decode op full) (form.decode op get) := by
  cases h with
  | none => exact cutAt_ok _
  | r => exact (readLoneReg_cut hg hn op 1).bind fun _ => cutAt_ok _
  | v8 => exact (readByte_cut hg hn 1).bind fun _ => cutAt_ok _
  | v16 => exact (readField16_cut hg hn 1).bind fun _ => cutAt_ok _
  | v32 => exact (readField32_cut hg hn 1).bind fun _ => cutAt_ok _
  | rr => exact (readByte_cut hg hn 1).bind fun _ => cutAt_ok _
  | rV8 => exact (readLoneReg_cut hg hn op 1).bind fun _ => (readByte_cut hg hn 2).bind fun _ => cutAt_ok _
  | rV16 => exact (readLoneReg_cut hg hn op 1).bind fun _ => (readField16_cut hg hn 2).bind fun _ => cutAt_ok _
  | rV32 => exact (readLoneReg_cut hg hn op 1).bind fun _ => (readField32_cut hg hn 2).bind fun _ => cutAt_ok _
  | rM => exact (readLoneReg_cut hg hn op 1).bind fun _ => (readField32_cut hg hn 2).bind fun _ => cutAt_ok _
  | mR => exact (readField32_cut hg hn 1).bind fun _ => (readLoneReg_cut hg hn op 5).bind fun _ => cutAt_ok _
  | mV8 => exact (readField32_cut hg hn 1).bind fun _ => (readByte_cut hg hn 5).bind fun _ => cutAt_ok _
  | mV16 => exact (readField32_cut hg hn 1).bind fun _ => (readField16_cut hg hn 5).bind fun _ => cutAt_ok _
  | mV32 => exact (readField32_cut hg hn 1).bind fun _ => (readField32_cut hg hn 5).bind fun _ => cutAt_ok _
  | mM => exact (readField32_cut hg hn 1).bind fun _ => (readField32_cut hg hn 5).bind fun _ => cutAt_ok _

end Cut

/-- Decoding an instruction whose byte `k` is missing, with the bytes below it present, stops there: decoding the whole
encoding does not stop, so it reads byte `k`. -/
theorem decode_of_cut_encode {i : Instr} {k : Nat} {get : ByteReader} (hk : k < i.length)
    (hg : ∀ j b, j < k → (encode i)[j]? = some b → get j = some b) (hn : get k = none) :
    decode get = .error (.unreadable k) := by
  obtain ⟨form, hf, h⟩ := hasFormat_encode i
  cases k with
  | zero =>
    have h0 : readByte get 0 = .error (.unreadable 0) := by rw [readByte, hn]
    rw [decode, h0]
    rfl
  | succ k =>
    have hfull : form.decode i.opcode (fun j => (encode i)[j]?) = .ok i :=
      (decode_form hf rfl).symm.trans (decode_of_agrees_encode fun _ _ hb => hb)
    obtain ⟨_, hcut⟩ := form_decode_cut hg hn h i hfull
    rw [decode_form hf (hg 0 _ (Nat.succ_pos k) rfl), hcut (Nat.succ_pos k), if_pos (length_encode i ▸ hk)]

end Sys2Proof

namespace Sys2Proof.Machine

/-! ### The fetch (R25, R104) -/

theorem fetchReader_of_ok {s : State} {k : Nat} {b : Byte} (h : byteAt s ((s.reg .pc).toNat + k) = .ok b) :
    fetchReader s k = some b := by
  simp only [fetchReader, h]

theorem fetchReader_of_not_ok {s : State} {k : Nat} (h : ∀ b, byteAt s ((s.reg .pc).toNat + k) ≠ .ok b) :
    fetchReader s k = none := by
  simp only [fetchReader, byteAt_of_not_ok h]

theorem fetch_of_readable {s : State} {i : Instr} (h : Readable s (s.reg .pc).toNat (encode i)) : fetch s = .ok i := by
  have hd : decode (fetchReader s) = .ok i := decode_of_agrees_encode fun k b hb => fetchReader_of_ok (h k b hb)
  simp only [fetch, hd]

/-- Settles O33: the fetch reads the bytes of the instruction in order, so the lowest that is missing stops it. -/
theorem fetchReportsTheLowestFailingByte : Obligations.FetchReportsTheLowestFailingByte := by
  intro s i
  refine ⟨fetch_of_readable, fun k hk hbelow hmissing => ?_⟩
  have hd : decode (fetchReader s) = .error (.unreadable k) :=
    decode_of_cut_encode hk (fun j b hj hb => fetchReader_of_ok (hbelow j b hj hb)) (fetchReader_of_not_ok hmissing)
  have hf : fetch s = .error (.outOfRange ((s.reg .pc).toNat + k)) := by simp only [fetch, hd]
  simp only [cpuStep, hf, takeFault_poll]

end Sys2Proof.Machine

/-! PROOFS. The bus: the regions of a byte access (R52 to R61) and composite accesses (R57 to R59). -/

namespace Sys2Proof.Machine

/-! ### The regions of a byte access (R53, R54) -/

section Regions
variable {s : State} {a : Nat}

/-- Below the limit of physical memory a read is routed to RAM (R52). -/
theorem busGet_of_lt_limit (ha : a < Config.physicalMemoryLimit) :
    busGet s a = if a + s.offset.toNat < s.memSize then .ok (s.ram.read (a + s.offset.toNat))
      else .error (.outOfRange a) := by
  simp only [busGet, if_pos ha]

/-- Below the limit of physical memory a write is routed to RAM (R52). -/
theorem busSet_of_lt_limit (ha : a < Config.physicalMemoryLimit) (v : Byte) :
    busSet s a v = if a + s.offset.toNat < s.memSize then .ok { s with ram := s.ram.write (a + s.offset.toNat) v }
      else .error (.outOfRange a) := by
  simp only [busSet, if_pos ha]

/-- An address of the gap is in no region before it (R56). -/
theorem not_lt_of_gap (hlo : Config.offsetEnd ≤ a) : ¬ a < Config.physicalMemoryLimit ∧ ¬ a < Config.offsetEnd := by
  simp only [Config.physicalMemoryLimit, Config.offsetEnd] at *
  omega

/-- An address of the device region is in no region before it (R53). -/
theorem not_lt_of_deviceRegion (ha : Config.deviceBaseMin ≤ a) :
    ¬ a < Config.physicalMemoryLimit ∧ ¬ a < Config.offsetEnd ∧ ¬ a < Config.deviceBaseMin := by
  simp only [Config.physicalMemoryLimit, Config.offsetEnd, Config.deviceBaseMin] at *
  omega

theorem busGet_gap (hlo : Config.offsetEnd ≤ a) (hhi : a < Config.deviceBaseMin) :
    busGet s a = .error (.outOfRange a) := by
  obtain ⟨h1, h2⟩ := not_lt_of_gap hlo
  simp only [busGet, if_neg h1, if_neg h2, if_pos hhi]

theorem busSet_gap (hlo : Config.offsetEnd ≤ a) (hhi : a < Config.deviceBaseMin) (v : Byte) :
    busSet s a v = .error (.outOfRange a) := by
  obtain ⟨h1, h2⟩ := not_lt_of_gap hlo
  simp only [busSet, if_neg h1, if_neg h2, if_pos hhi]

/-- In the device region a read is the answer of the first window that covers the address (R61). -/
theorem busGet_of_deviceRead {v : Byte} (ha : Config.deviceBaseMin ≤ a) (h : deviceRead s.devices a = some v) :
    busGet s a = .ok v := by
  obtain ⟨h1, h2, h3⟩ := not_lt_of_deviceRegion ha
  simp only [busGet, if_neg h1, if_neg h2, if_neg h3, h]

theorem busGet_of_deviceRead_none (ha : Config.deviceBaseMin ≤ a) (h : deviceRead s.devices a = none) :
    busGet s a = .error (.outOfRange a) := by
  obtain ⟨h1, h2, h3⟩ := not_lt_of_deviceRegion ha
  simp only [busGet, if_neg h1, if_neg h2, if_neg h3, h]

theorem busSet_of_deviceWrite {v : Byte} {ds : List DeviceEntry} (ha : Config.deviceBaseMin ≤ a)
    (h : deviceWrite s.devices a v = some ds) : busSet s a v = .ok { s with devices := ds } := by
  obtain ⟨h1, h2, h3⟩ := not_lt_of_deviceRegion ha
  simp only [busSet, if_neg h1, if_neg h2, if_neg h3, h]

theorem busSet_of_deviceWrite_none {v : Byte} (ha : Config.deviceBaseMin ≤ a) (h : deviceWrite s.devices a v = none) :
    busSet s a v = .error (.outOfRange a) := by
  obtain ⟨h1, h2, h3⟩ := not_lt_of_deviceRegion ha
  simp only [busSet, if_neg h1, if_neg h2, if_neg h3, h]

end Regions

/-- Settles O10: by the region of RAM, and by reading it after a write. -/
theorem ramByteIsAtAddressPlusOffset : Obligations.RamByteIsAtAddressPlusOffset := by
  intro s a v hw ha
  refine ⟨fun hin => ?_, fun hout => ?_⟩
  · have hs := busSet_of_lt_limit (s := s) ha v
    rw [if_pos hin] at hs
    have hread := busGet_busSet_ram hw ha hs
    refine ⟨by rw [busGet_of_lt_limit ha, if_pos hin], _, hs, ?_, ?_, fun b hb => ?_, rfl, rfl, rfl, rfl, rfl, rfl⟩
    · simpa using Memory.read_write hw (a + s.offset.toNat) (a + s.offset.toNat) v
    · rw [hread, if_pos rfl]
    · rw [hread, if_neg hb]
  · rw [busGet_of_lt_limit ha, busSet_of_lt_limit ha, if_neg (Nat.not_lt.2 hout), if_neg (Nat.not_lt.2 hout)]
    exact ⟨rfl, rfl⟩

/-- Settles O12: no region before the gap has the address, and the gap answers nothing. -/
theorem gapAccessesFault : Obligations.GapAccessesFault :=
  fun _ _ v hlo hhi => ⟨busGet_gap hlo hhi, busSet_gap hlo hhi v⟩

/-! ### The first window in registration order (R60, R61) -/

theorem DeviceEntry.covers_unmapped (dev : Device) (a : Nat) : (⟨none, dev⟩ : DeviceEntry).covers a = false := rfl

/-- The CPU's window has size 0 (R68). -/
theorem DeviceEntry.covers_cpu (b : Option Word) (a : Nat) : (⟨b, .cpu⟩ : DeviceEntry).covers a = false := by
  cases b with
  | none => rfl
  | some b => simp [DeviceEntry.covers, Device.size]

theorem DeviceEntry.covers_other {b size : Word} {a id : Nat} {st : DeviceState} (hlo : b.toNat ≤ a)
    (hhi : a < b.toNat + size.toNat) : (⟨some b, .other id size st⟩ : DeviceEntry).covers a = true :=
  Bool.and_eq_true_iff.2 ⟨decide_eq_true hlo, decide_eq_true (Nat.sub_lt_left_of_lt_add hlo hhi)⟩

section FirstWindow
variable {pre post ds : List DeviceEntry} {d : DeviceEntry} {a : Nat}

theorem deviceRead_of_first (hpre : ∀ e ∈ pre, e.covers a = false) (hd : d.covers a = true) :
    deviceRead (pre ++ d :: post) a = some (d.get a) := by
  induction pre with
  | nil => simp only [List.nil_append, deviceRead, hd, if_true]
  | cons e pre ih =>
    obtain ⟨he, hpre⟩ := List.forall_mem_cons.1 hpre
    simpa [deviceRead, he] using ih hpre

theorem deviceWrite_of_first (hpre : ∀ e ∈ pre, e.covers a = false) (hd : d.covers a = true) (v : Byte) :
    deviceWrite (pre ++ d :: post) a v = some (pre ++ d.set a v :: post) := by
  induction pre with
  | nil => simp only [List.nil_append, deviceWrite, hd, if_true]
  | cons e pre ih =>
    obtain ⟨he, hpre⟩ := List.forall_mem_cons.1 hpre
    simp [deviceWrite, he, ih hpre]

theorem deviceRead_eq_none (h : ∀ e ∈ ds, e.covers a = false) : deviceRead ds a = none := by
  induction ds with
  | nil => rfl
  | cons e ds ih =>
    obtain ⟨he, hds⟩ := List.forall_mem_cons.1 h
    simpa [deviceRead, he] using ih hds

theorem deviceWrite_eq_none (h : ∀ e ∈ ds, e.covers a = false) (v : Byte) : deviceWrite ds a v = none := by
  induction ds with
  | nil => rfl
  | cons e ds ih =>
    obtain ⟨he, hds⟩ := List.forall_mem_cons.1 h
    simpa [deviceWrite, he] using ih hds

end FirstWindow

/-- A read in the first window that covers the address is the device's `get` at the local address (R61). -/
theorem busGet_of_first_window {s : State} {a id : Nat} {pre post : List DeviceEntry} {b size : Word} {st : DeviceState}
    (ha : Config.deviceBaseMin ≤ a) (hs : s.devices = pre ++ ⟨some b, .other id size st⟩ :: post)
    (hpre : ∀ e ∈ pre, e.covers a = false) (hlo : b.toNat ≤ a) (hhi : a < b.toNat + size.toNat) :
    busGet s a = .ok (Config.deviceGet id st (a - b.toNat)) :=
  busGet_of_deviceRead ha (hs ▸ deviceRead_of_first hpre (DeviceEntry.covers_other hlo hhi))

/-- Settles O13: entries that do not cover the address are passed over, and the first that does answers. -/
theorem firstWindowInRegistrationOrderWins : Obligations.FirstWindowInRegistrationOrderWins := by
  refine ⟨fun s a v pre post b id size st ha hs hpre hlo hhi => ⟨busGet_of_first_window ha hs hpre hlo hhi, ?_⟩,
    fun s a v ha hnone => ⟨busGet_of_deviceRead_none ha (deviceRead_eq_none hnone),
      busSet_of_deviceWrite_none ha (deviceWrite_eq_none hnone v)⟩,
    fun a b dev => ⟨DeviceEntry.covers_unmapped dev a, DeviceEntry.covers_cpu b a⟩⟩
  exact busSet_of_deviceWrite ha (hs ▸ deviceWrite_of_first hpre (DeviceEntry.covers_other hlo hhi) v)

/-! ### Composite reads (R57, R58) -/

theorem byteAt_of_lt {s : State} {a : Nat} (h : a < Config.addressSpace) : byteAt s a = busGet s a := if_pos h

theorem byteAt_of_ge {s : State} {a : Nat} (h : Config.addressSpace ≤ a) : byteAt s a = .error (.outOfRange a) :=
  if_neg (Nat.not_lt.2 h)

/-- Settles O14: by the value of a composite read, byte count by byte count, and its lowest failing byte. -/
theorem compositeReadIsLittleEndianAndDoesNotWrap : Obligations.CompositeReadIsLittleEndianAndDoesNotWrap := by
  intro s addr
  exact ⟨fun b0 h => (memRead_ok h rfl).trans (congrArg _ (leWord_one b0)),
    fun b0 b1 h => (memRead_ok h rfl).trans (congrArg _ (leWord_two b0 b1)),
    fun b0 b1 b2 b3 h => (memRead_ok h rfl).trans (congrArg _ (leWord_four b0 b1 b2 b3)),
    fun n k => memRead_error, byteAt_of_ge, byteAt_of_lt⟩

/-- Bytes that each byte read answers, below the top of the address space, are readable together. -/
theorem readable_of_busGet {s : State} {a : Nat} {bs : List Byte} (ha : a + bs.length ≤ Config.addressSpace)
    (h : ∀ k b, bs[k]? = some b → busGet s (a + k) = .ok b) : Readable s a bs := by
  intro k b hk
  obtain ⟨hlt, _⟩ := List.getElem?_eq_some_iff.1 hk
  rw [byteAt_of_lt (by omega), h k b hk]

/-- A 32-bit read of a word's bytes gives the word (R57, R77). -/
theorem memRead_bytes32 {s : State} {a : Nat} {x : Word} (h : Readable s a (bytes32 x)) : memRead s a 4 = .ok x := by
  have hv : leWord (bytes32 x) = x := by rw [bytes32, leWord_four, append_bytes32]
  exact (memRead_ok h rfl).trans (congrArg _ hv)

/-- A 16-bit read of a word's upper two bytes gives its upper half (R57, R77). -/
theorem memRead_bytes32_high {s : State} {a : Nat} {x : Word} (h : Readable s a [x.extractLsb' 16 8, x.extractLsb' 24 8]) :
    memRead s a 2 = .ok ((x.extractLsb' 16 16).setWidth 32) := by
  have hv : leWord [x.extractLsb' 16 8, x.extractLsb' 24 8] = (x.extractLsb' 16 16).setWidth 32 := by
    rw [leWord_two, BitVec.extractLsb'_append_extractLsb'_eq_extractLsb' (by rfl)]
  exact (memRead_ok h rfl).trans (congrArg _ hv)

/-! ### Composite writes (R59) -/

theorem busWrite_cons_ok {s t : State} {a : Nat} {b : Byte} (ha : a < Config.addressSpace) (h : busSet s a b = .ok t)
    (bs : List Byte) : busWrite s a (b :: bs) = busWrite t (a + 1) bs := by
  simp only [busWrite, if_pos ha, h]

theorem busWrite_cons_error {s : State} {a : Nat} {b : Byte} {f : Fault} (ha : a < Config.addressSpace)
    (h : busSet s a b = .error f) (bs : List Byte) : busWrite s a (b :: bs) = (s, some f) := by
  simp only [busWrite, if_pos ha, h]

theorem busWrite_cons_past {s : State} {a : Nat} (ha : Config.addressSpace ≤ a) (b : Byte) (bs : List Byte) :
    busWrite s a (b :: bs) = (s, some (.outOfRange a)) := by
  simp only [busWrite, if_neg (Nat.not_lt.2 ha)]

/-- A composite write that starts with bytes that can all be written goes on where they ended (R59). -/
theorem busWrite_append {s m : State} {a : Nat} {pre : List Byte} (h : busWrite s a pre = (m, none)) (bs : List Byte) :
    busWrite s a (pre ++ bs) = busWrite m (a + pre.length) bs := by
  induction pre generalizing s a with
  | nil =>
    cases h
    rfl
  | cons b pre ih =>
    by_cases ha : a < Config.addressSpace
    case neg =>
      rw [busWrite_cons_past (Nat.not_lt.1 ha)] at h
      cases h
    case pos =>
      cases hb : busSet s a b with
      | error f =>
        rw [busWrite_cons_error ha hb] at h
        cases h
      | ok t =>
        rw [busWrite_cons_ok ha hb] at h
        rw [List.cons_append, busWrite_cons_ok ha hb, ih h, List.length_cons, Nat.add_assoc, Nat.add_comm 1]

/-- Settles O16: the write goes on after the bytes written, and its next byte decides. -/
theorem compositeWriteKeepsTheBytesBeforeAFault : Obligations.CompositeWriteKeepsTheBytesBeforeAFault := by
  intro s m a pre post b h
  refine ⟨fun f ha hf => ?_, fun ha => ?_, fun m' ha hm => ?_⟩
  · rw [busWrite_append h, busWrite_cons_error ha hf]
  · rw [busWrite_append h, busWrite_cons_past ha]
  · rw [busWrite_append h, busWrite_cons_ok ha hm, busWrite]

/-- Settles O15: each byte written is read back, and the reads of parts are put together from those bytes. -/
theorem compositeStoreInRamRoundTrips : Obligations.CompositeStoreInRamRoundTrips := by
  intro s a x hw ha hm
  obtain ⟨t, ht, _, _, _, hbytes, hrest⟩ := busWrite_ram (bs := bytes32 x) hw ha
    (show a + 4 + s.offset.toNat ≤ s.memSize by omega)
  have hr : Readable t a (bytes32 x) := readable_of_busGet (Nat.le_trans ha (by decide)) hbytes
  exact ⟨t, ht, memRead_bytes32 hr, hbytes 0 _ rfl, hbytes 1 _ rfl, memRead_bytes32_high hr.tail.tail, hrest⟩

/-! ### The offset register (R55) -/

/-- A composite write in the offset register replaces its first byte and goes on (R54, R55). -/
theorem busWrite_cons_offset (s : State) {k : Nat} (hk : k < 4) (b : Byte) (bs : List Byte) :
    busWrite s (Config.physicalMemoryLimit + k) (b :: bs) =
      busWrite { s with offset := setByte s.offset k b } (Config.physicalMemoryLimit + (k + 1)) bs :=
  busWrite_cons_ok (by simp only [Config.physicalMemoryLimit, Config.addressSpace]; omega) (busSet_offset s b hk) bs

/-- Replacing all four bytes of a word gives the word of the new bytes. -/
theorem setByte_all (w x : Word) :
    setByte (setByte (setByte (setByte w 0 (getByte x 0)) 1 (getByte x 1)) 2 (getByte x 2)) 3 (getByte x 3) = x := by
  refine word_eq_of_getByte fun j hj => ?_
  simp only [getByte_setByte _ _ hj]
  obtain rfl | rfl | rfl | rfl : j = 0 ∨ j = 1 ∨ j = 2 ∨ j = 3 := by omega
  all_goals simp

/-- A 32-bit write to the offset register sets the whole offset and nothing else (R55). -/
theorem busWrite_offset (s : State) (x : Word) :
    busWrite s Config.physicalMemoryLimit (bytes32 x) = ({ s with offset := x }, none) := by
  have h : bytes32 x = [getByte x 0, getByte x 1, getByte x 2, getByte x 3] := rfl
  rw [h, ← Nat.add_zero Config.physicalMemoryLimit, busWrite_cons_offset _ (by decide), busWrite_cons_offset _ (by decide),
    busWrite_cons_offset _ (by decide), busWrite_cons_offset _ (by decide), busWrite, setByte_all]

/-- A 32-bit read of the offset register gives the offset (R55, R57). -/
theorem memRead_offset (s : State) : memRead s Config.physicalMemoryLimit 4 = .ok s.offset := by
  have htop : Config.physicalMemoryLimit + 4 ≤ Config.addressSpace := by decide
  refine memRead_bytes32 (readable_of_busGet htop fun k b hk => ?_)
  obtain ⟨hlt, rfl⟩ := List.getElem?_eq_some_iff.1 hk
  rw [busGet_offset s hlt]
  match k, hlt with
  | 0, _ | 1, _ | 2, _ | 3, _ => rfl

/-- Settles O11: by the byte cells of the offset register, and by writing all four of them in a row. -/
theorem offsetRegisterIsFourByteCells : Obligations.OffsetRegisterIsFourByteCells := by
  intro s k v x hk
  refine ⟨busGet_offset s hk, ⟨_, busSet_offset s v hk, rfl, fun j hj => ?_⟩,
    _, busWrite_offset s x, rfl, memRead_offset { s with offset := x }, fun a ha => busGet_of_lt_limit ha⟩
  have hread (t : State) : busGet t (0xF0000000 + j) = .ok (getByte t.offset j) := busGet_offset t hj
  rw [hread, hread, getByte_setByte s.offset v hj]
  by_cases h : j = k
  · rw [if_pos h, if_pos h]
  · rw [if_neg h, if_neg h]

end Sys2Proof.Machine

/-! PROOFS. The apply phase (R75, R76) and construction (R67, R68, R350 to R352). -/

namespace Sys2Proof.Machine

/-! ### Commands applied in order (R75) -/

/-- Commands that apply keep what each write keeps. -/
theorem AppliedTo.keeps {q : List Command} {s m : State} (h : AppliedTo q s m) : WriteKeeps s m := by
  induction q generalizing s with
  | nil =>
    cases h
    exact .refl _
  | cons c q ih =>
    obtain ⟨t, ht, hq⟩ := h
    have hk := busWrite_keeps (s := s) (a := c.addr.toNat) (bs := c.bytes)
    rw [ht] at hk
    exact hk.trans (ih hq)

/-- Commands that apply keep the canonical form of memory. -/
theorem AppliedTo.ram_wf {q : List Command} {s m : State} (h : AppliedTo q s m) (hw : s.ram.wf = true) :
    m.ram.wf = true := by
  induction q generalizing s with
  | nil =>
    cases h
    exact hw
  | cons c q ih =>
    obtain ⟨t, ht, hq⟩ := h
    have hwt := busWrite_wf (a := c.addr.toNat) (bs := c.bytes) hw
    rw [ht] at hwt
    exact ih hq hwt

/-- The apply phase goes on after the commands that apply. -/
theorem AppliedTo.applyQueue_append {q : List Command} {s m : State} (h : AppliedTo q s m) (q' : List Command) :
    applyQueue (q ++ q') s = applyQueue q' m := by
  induction q generalizing s with
  | nil =>
    cases h
    rfl
  | cons c q ih =>
    obtain ⟨t, ht, hq⟩ := h
    simp only [List.cons_append, applyQueue, ht, ih hq]

/-- The apply phase of a queue whose first part applies. -/
theorem applyPhase_of_appliedTo {t m : State} {q q' : List Command} (hq : t.queue = q ++ q')
    (h : AppliedTo q (t.setQueue []) m) : applyPhase t = applyQueue q' m := by
  rw [applyPhase, hq, h.applyQueue_append]

/-- Settles O19: the apply phase goes on after the commands that apply, to the end of the queue or to the one that
faults. -/
theorem applyPhaseIsInOrderAndStopsAtAFault : Obligations.ApplyPhaseIsInOrderAndStopsAtAFault := by
  intro t
  constructor
  case done => exact fun u h => applyPhase_of_appliedTo (List.append_nil _).symm h
  case stopped =>
    intro q c q' m u f hq h hf
    rw [applyPhase_of_appliedTo hq h]
    simp only [applyQueue, hf]
    rfl

/-- A byte command to RAM applies, and writes its byte under the offset of that moment (R52, R89). -/
theorem appliedTo_writeByte_ram {m : State} {a : Word} {v : Byte} (ha : a.toNat < Config.physicalMemoryLimit)
    (hm : a.toNat + m.offset.toNat < m.memSize) :
    AppliedTo [.writeByte a v] m { m with ram := m.ram.write (a.toNat + m.offset.toNat) v } := by
  have hs := busSet_of_lt_limit (s := m) ha v
  rw [if_pos hm] at hs
  exact ⟨_, busWrite_cons_ok (Nat.lt_trans ha (by decide)) hs [], rfl⟩

/-- A 32-bit command to the offset register applies, and sets the offset (R55). -/
theorem appliedTo_writeDword32_offset (m : State) (x : Word) :
    AppliedTo [.writeDword32 0xF0000000#32 x] m { m with offset := x } :=
  ⟨_, busWrite_offset m x, rfl⟩

theorem AppliedTo.append {q q' : List Command} {s m u : State} (h : AppliedTo q s m) (h' : AppliedTo q' m u) :
    AppliedTo (q ++ q') s u := by
  induction q generalizing s with
  | nil =>
    cases h
    exact h'
  | cons c q ih =>
    obtain ⟨t, ht, hq⟩ := h
    exact ⟨t, ht, ih hq⟩

/-- Commands that apply, queued, are the whole of the apply phase. -/
theorem AppliedTo.applyPhase_eq {q : List Command} {t u : State} (h : AppliedTo q (t.setQueue []) u)
    (hq : t.queue = q) : applyPhase t = u :=
  (applyPhaseIsInOrderAndStopsAtAFault t).done u (hq ▸ h)

/-- Settles O17: the last command is applied in the state the earlier ones left. -/
theorem lastWriterOfAStepWins : Obligations.LastWriterOfAStepWins := by
  intro t m q a v hw hq h ha hm
  have hu := (h.append (appliedTo_writeByte_ram (v := v) ha hm)).applyPhase_eq hq
  have hs := busSet_of_lt_limit (s := m) ha v
  rw [if_pos hm, ← hu] at hs
  have hread := busGet_busSet_ram (h.ram_wf hw) ha hs
  refine ⟨(busSet_keeps hs).status.trans h.keeps.status, ?_, fun b hb => ?_⟩
  · rw [hread, if_pos rfl]
  · rw [hread, if_neg hb]

/-- Settles O18: the first command sets the offset under which the second is applied. -/
theorem commandsUseTheOffsetOfTheirMoment : Obligations.CommandsUseTheOffsetOfTheirMoment := by
  intro t x a v hw hq ha hm
  have hstore : AppliedTo [.writeByte a v] { t.setQueue [] with offset := x }
      { t.setQueue [] with offset := x, ram := t.ram.write (a.toNat + x.toNat) v } := appliedTo_writeByte_ram ha hm
  have hu := ((appliedTo_writeDword32_offset (t.setQueue []) x).append hstore).applyPhase_eq hq
  have hread := Memory.read_write hw (a.toNat + x.toNat)
  rw [hu]
  exact ⟨rfl, rfl, by simp [hread], fun n hn => by simp [hread, hn]⟩

/-! ### Registering devices (R67, R68) -/

section Placed
variable {b : Word} {dev : Device}

theorem DeviceEntry.placed_iff : (⟨some b, dev⟩ : DeviceEntry).placed = true ↔
    Config.deviceBaseMin ≤ b.toNat ∧ b.toNat + dev.size ≤ Config.addressSpace := by
  simp only [DeviceEntry.placed, Bool.and_eq_true, decide_eq_true_eq]

theorem addDevice_of_placed (s : State) (h : (⟨some b, dev⟩ : DeviceEntry).placed = true) :
    addDevice s dev (some b) = .ok (s.setDevices (s.devices ++ [⟨some b, dev⟩]), some (b.toNat + dev.size)) := by
  simp only [addDevice, if_pos h]

/-- An illegal base is refused and nothing is registered (R67). -/
theorem addDevice_of_illegal (s : State) (h : b.toNat < Config.deviceBaseMin ∨ Config.addressSpace < b.toNat + dev.size) :
    addDevice s dev (some b) = .error (.invalidMapping b dev.size) := by
  have hn : ¬ (⟨some b, dev⟩ : DeviceEntry).placed = true := by
    rw [DeviceEntry.placed_iff]
    omega
  simp only [addDevice, if_neg hn]

end Placed

/-- Settles O24: by whether the entry is placed; its window is read as the first that covers the address. -/
theorem addDeviceChecksTheBaseAndRegistersLast : Obligations.AddDeviceChecksTheBaseAndRegistersLast := by
  intro s dev b
  refine ⟨fun hlo hhi => addDevice_of_placed s (DeviceEntry.placed_iff.2 ⟨hlo, hhi⟩), addDevice_of_illegal s,
    ⟨_, rfl⟩, fun hlo => addDevice_of_placed s (DeviceEntry.placed_iff.2 ⟨hlo, Nat.le_of_lt b.isLt⟩),
    fun hlo => addDevice_of_illegal (dev := .cpu) s (.inl hlo), ?_⟩
  rintro t next id k size st rfl hadd hk hfirst
  by_cases hp : (⟨some b, .other id size st⟩ : DeviceEntry).placed = true
  case neg =>
    simp only [addDevice, if_neg hp] at hadd
    cases hadd
  case pos =>
    cases (addDevice_of_placed s hp).symm.trans hadd
    have hlo : Config.deviceBaseMin ≤ b.toNat + k := Nat.le_add_right_of_le (DeviceEntry.placed_iff.1 hp).1
    rw [busGet_of_first_window hlo rfl hfirst (Nat.le_add_right ..) (by omega), Nat.add_sub_cancel_left]

/-! ### The device table of a construction (R350) -/

theorem addDevice_of_entry_placed (s : State) {d : DeviceEntry} (h : d.placed = true) :
    ∃ next, addDevice s d.device d.base = .ok (s.setDevices (s.devices ++ [d]), next) := by
  obtain ⟨base, dev⟩ := d
  cases base with
  | none => exact ⟨_, rfl⟩
  | some b => exact ⟨_, addDevice_of_placed s h⟩

/-- Placed entries are all registered, in order, before the entries after them. -/
theorem buildTable_append {pre : List DeviceEntry} (hpre : ∀ e ∈ pre, e.placed = true) (ds : List DeviceEntry)
    (s : State) : buildTable (pre ++ ds) s = buildTable ds (s.setDevices (s.devices ++ pre)) := by
  induction pre generalizing s with
  | nil => simp only [List.append_nil, List.nil_append]; rfl
  | cons e pre ih =>
    obtain ⟨he, hpre⟩ := List.forall_mem_cons.1 hpre
    obtain ⟨next, hadd⟩ := addDevice_of_entry_placed s he
    simp only [List.cons_append, buildTable, hadd, ih hpre, setDevices_devices, List.append_assoc, List.nil_append]
    rfl

theorem buildTable_of_placed {ds : List DeviceEntry} (h : ∀ e ∈ ds, e.placed = true) (s : State) :
    buildTable ds s = .ok (s.setDevices (s.devices ++ ds)) := by
  have happ := buildTable_append h [] s
  rwa [List.append_nil] at happ

/-- An entry that is registered is placed. -/
theorem placed_of_addDevice {s : State} {d : DeviceEntry} {r : State × Option Nat}
    (h : addDevice s d.device d.base = .ok r) : d.placed = true := by
  obtain ⟨base, dev⟩ := d
  cases base with
  | none => rfl
  | some b =>
    by_contra hp
    simp only [addDevice, if_neg hp] at h
    cases h

/-- A table that is built has only placed entries. -/
theorem placed_of_buildTable {ds : List DeviceEntry} {s t : State} (h : buildTable ds s = .ok t) :
    ∀ e ∈ ds, e.placed = true := by
  induction ds generalizing s with
  | nil => exact List.forall_mem_nil _
  | cons d ds ih =>
    cases hadd : addDevice s d.device d.base with
    | error f =>
      simp only [buildTable, hadd] at h
      cases h
    | ok r =>
      simp only [buildTable, hadd] at h
      exact List.forall_mem_cons.2 ⟨placed_of_addDevice hadd, ih h⟩

/-! ### The bytes loaded (R352) -/

/-- A load writes memory only. -/
theorem loadRam_eq (cs : List Host.Cell) (s : State) : loadRam cs s = { s with ram := (loadRam cs s).ram } := by
  induction cs generalizing s with
  | nil => rfl
  | cons c cs ih =>
    unfold loadRam
    split
    · exact ih _
    · exact ih _

theorem loadRam_append (cs cs' : List Host.Cell) (s : State) : loadRam (cs ++ cs') s = loadRam cs' (loadRam cs s) := by
  induction cs generalizing s with
  | nil => rfl
  | cons c cs ih => exact ih _

theorem loadRam_memSize (cs : List Host.Cell) (s : State) : (loadRam cs s).memSize = s.memSize := by
  rw [loadRam_eq]

theorem loadRam_wf {cs : List Host.Cell} {s : State} (h : s.ram.wf = true) : (loadRam cs s).ram.wf = true := by
  induction cs generalizing s with
  | nil => exact h
  | cons c cs ih =>
    unfold loadRam
    split
    · exact ih (Memory.wf_write h _ _)
    · exact ih h

theorem loadRam_below {cs : List Host.Cell} {s : State} (h : s.ram.below s.memSize = true) :
    (loadRam cs s).ram.below s.memSize = true := by
  induction cs generalizing s with
  | nil => exact h
  | cons c cs ih =>
    unfold loadRam
    split
    case isTrue hi => exact ih (s := { s with ram := _ }) (Memory.below_write h hi _)
    case isFalse => exact ih h

/-- A load leaves the indexes it does not list. -/
theorem loadRam_read_of_ne {cs : List Host.Cell} {s : State} {n : Nat} (hw : s.ram.wf = true)
    (h : ∀ c ∈ cs, c.1 ≠ n) : (loadRam cs s).ram.read n = s.ram.read n := by
  induction cs generalizing s with
  | nil => rfl
  | cons c cs ih =>
    obtain ⟨hc, hcs⟩ := List.forall_mem_cons.1 h
    unfold loadRam
    split
    · rw [ih (Memory.wf_write hw _ _) hcs, Memory.read_write hw, if_neg hc.symm]
    · exact ih hw hcs

/-- A byte loaded to an index of RAM, and not loaded over, is there. -/
theorem loadRam_read_last {cs cs' : List Host.Cell} {s : State} {n : Nat} {b : Byte} (hw : s.ram.wf = true)
    (hn : n < s.memSize) (h : ∀ c ∈ cs', c.1 ≠ n) : (loadRam (cs ++ (n, b) :: cs') s).ram.read n = b := by
  have hwt := loadRam_wf (cs := cs) hw
  rw [loadRam_append, loadRam, if_pos (loadRam_memSize cs s ▸ hn), loadRam_read_of_ne (Memory.wf_write hwt _ _) h,
    Memory.read_write hwt, if_pos rfl]

/-! ### Construction (R350) -/

/-- A construction whose entries are placed ends in the state the table, the loads and the registers make. -/
theorem construct_of_placed {p : Platform} (h : ∀ e ∈ p.devices, e.placed = true) :
    construct p = .ok ((loadRam p.ramInit (p.blank.setDevices p.devices)).setRegFile p.regInit) := by
  have hb := buildTable_of_placed h p.blank
  rw [construct, hb]
  rfl

/-- A construction that succeeds had only placed entries. -/
theorem placed_of_construct {p : Platform} {s : State} (h : construct p = .ok s) : ∀ e ∈ p.devices, e.placed = true := by
  cases hb : buildTable p.devices p.blank with
  | error f =>
    simp only [construct, hb] at h
    cases h
  | ok t => exact placed_of_buildTable hb

/-- The first ill-placed entry stops the construction (R67). -/
theorem construct_of_illegal {p : Platform} {pre post : List DeviceEntry} {b : Word} {dev : Device}
    (hp : p.devices = pre ++ ⟨some b, dev⟩ :: post) (hpre : ∀ e ∈ pre, e.placed = true)
    (h : b.toNat < Config.deviceBaseMin ∨ Config.addressSpace < b.toNat + dev.size) :
    construct p = .error (.invalidMapping b dev.size) := by
  have hb : buildTable p.devices p.blank = .error (.invalidMapping b dev.size) := by
    rw [hp, buildTable_append hpre, buildTable]
    simp only [addDevice_of_illegal _ h]
  simp only [construct, hb]

/-- Settles O23: by the table it builds, and by what a load leaves at each index of the memory that was all zero. -/
theorem constructionBuildsTheGivenPlatform : Obligations.ConstructionBuildsTheGivenPlatform := by
  refine ⟨fun p h => ⟨_, construct_of_placed h⟩, fun p pre post b dev => construct_of_illegal, fun p s h => ?_⟩
  cases (construct_of_placed (placed_of_construct h)).symm.trans h
  rw [loadRam_eq]
  refine ⟨rfl, rfl, rfl, rfl, rfl, rfl, rfl, loadRam_wf rfl, loadRam_below rfl, fun n hn => loadRam_read_of_ne rfl hn, ?_⟩
  intro cs cs' n b hcs hlast hn
  simp only [setRegFile_ram, hcs]
  exact loadRam_read_last rfl hn hlast

end Sys2Proof.Machine

/-! PROOFS. The global step: what it answers, and the CPU's place in the poll phase (R69 to R76, R321). -/

namespace Sys2Proof.Machine

/-! ### What a step answers (R69, R72, R321) -/

theorem step_of_tableOk {s u : State} {es : List DeviceEntry} (hs : s.status.isFault = false)
    (hd : deviceTableOk s.devices = true) (hp : pollDevices s.devices s.beginStep = (.next u, es)) :
    step s = .next (endStep (u.setDevices es)) := by
  simp only [step, globalStep, hs, hd, hp, Bool.false_eq_true, if_false, if_true]

theorem step_of_not_tableOk {s : State} (hs : s.status.isFault = false) (hd : deviceTableOk s.devices = false) :
    step s = .refused .illFormedDeviceTable := by
  simp only [step, globalStep, hs, hd, Bool.false_eq_true, if_false]

theorem endStep_draws (s : State) : (endStep s).draws = s.draws := by
  unfold endStep
  split
  case isTrue => rfl
  case isFalse => exact (applyQueue_keeps s.queue (s.setQueue [])).draws

/-- The apply phase raises no fault of the poll phase (R326). -/
theorem status_of_endStep_poll {s : State} {f : Fault} (h : (endStep s).status = .fault f .poll) :
    s.status = .fault f .poll := by
  unfold endStep at h
  split at h
  case isTrue => exact h
  case isFalse =>
    rcases (applyQueue_keeps s.queue (s.setQueue [])).fault f .poll h with hs | ⟨_, hp⟩
    · exact hs
    · cases hp

/-- Settles O27: the poll phase answers, keeps the count drawn at the start, and raises only faults that have their cause;
the apply phase adds no poll fault. -/
theorem stepAnswersOnWellFormedTables : Obligations.StepAnswersOnWellFormedTables := by
  intro s hs
  obtain ⟨u, es, hp, hk, _⟩ := pollDevices_keeps s.devices s.beginStep
  refine ⟨fun hd => ⟨_, step_of_tableOk hs hd hp, (endStep_draws _).trans hk.draws⟩, fun t f ht hf => ?_,
    step_of_not_tableOk hs⟩
  rcases step_next_cases ht with ⟨hs', _⟩ | ⟨_, _, u', es', hp', rfl⟩
  · rw [hs] at hs'
    cases hs'
  · cases hp.symm.trans hp'
    rcases hk.fault f .poll (status_of_endStep_poll (s := u.setDevices es) hf) with hb | hc
    · rw [show s.status = .fault f .poll from hb] at hs
      cases hs
    · exact Fault.Caused.congr (t := s.beginStep) (fun _ => rfl) hc

/-! ### The CPU in the poll phase (R70, R71, R73) -/

/-- An entry whose poll brings no fault is followed by the entries after it (R71). -/
theorem pollDevices_cons_of_not_fault {d e : DeviceEntry} {s t : State} (hp : pollEntry d s = (.next t, e))
    (ht : t.status.isFault = false) (ds : List DeviceEntry) :
    pollDevices (d :: ds) s = ((pollDevices ds t).1, e :: (pollDevices ds t).2) := by
  simp only [pollDevices, hp, ht, Bool.false_eq_true, if_false]

/-- An entry whose poll brings a fault is the last that is polled (R71, R76). -/
theorem pollDevices_cons_of_fault {d e : DeviceEntry} {s t : State} (hp : pollEntry d s = (.next t, e))
    (ht : t.status.isFault = true) (ds : List DeviceEntry) : pollDevices (d :: ds) s = (.next t, e :: ds) := by
  simp only [pollDevices, hp, ht, if_true]

/-- After entries that poll without a fault the entries after them are polled (R70, R71). -/
theorem pollDevices_append {pre pre' : List DeviceEntry} {s m : State} (hp : pollDevices pre s = (.next m, pre'))
    (hm : m.status.isFault = false) (ds : List DeviceEntry) :
    pollDevices (pre ++ ds) s = ((pollDevices ds m).1, pre' ++ (pollDevices ds m).2) := by
  induction pre generalizing s pre' with
  | nil =>
    cases hp
    rfl
  | cons d pre ih =>
    obtain ⟨t, e, hpoll, _⟩ := pollEntry_keeps d s
    cases ht : t.status.isFault with
    | true =>
      rw [pollDevices_cons_of_fault hpoll ht] at hp
      cases hp
      rw [ht] at hm
      cases hm
    | false =>
      rw [pollDevices_cons_of_not_fault hpoll ht] at hp
      obtain ⟨hnext, rfl⟩ := Prod.mk.inj hp
      rw [List.cons_append, pollDevices_cons_of_not_fault hpoll ht, ih (Prod.ext hnext rfl)]
      rfl

/-- Devices other than the CPU leave its registers alone (R66). -/
theorem pollDevices_regs {ds es : List DeviceEntry} {s m : State} (hds : ∀ e ∈ ds, e.device.isCpu = false)
    (hp : pollDevices ds s = (.next m, es)) : m.regs = s.regs := by
  induction ds generalizing s es with
  | nil =>
    cases hp
    rfl
  | cons d ds ih =>
    obtain ⟨hd, hds⟩ := List.forall_mem_cons.1 hds
    obtain ⟨t, e, hpoll, _, _, hother⟩ := pollEntry_keeps d s
    obtain ⟨hregs, _⟩ := hother hd
    cases ht : t.status.isFault with
    | true =>
      rw [pollDevices_cons_of_fault hpoll ht] at hp
      cases hp
      exact hregs
    | false =>
      rw [pollDevices_cons_of_not_fault hpoll ht] at hp
      obtain ⟨hnext, _⟩ := Prod.mk.inj hp
      exact (ih hds (Prod.ext hnext rfl)).trans hregs

/-- Which bytes are readable depends on the bus alone. -/
theorem Readable.congr {s t : State} {a : Nat} {bs : List Byte} (h : Readable s a bs)
    (hbus : ∀ a, busGet t a = busGet s a) : Readable t a bs :=
  fun k b hk => (byteAt_congr hbus (a + k)).trans (h k b hk)

/-- A running CPU's poll is the instruction whose bytes stand at PC (R104, R140). -/
theorem cpuPoll_of_readable {s : State} {i : Instr} (hs : s.status = .run)
    (h : Readable s (s.reg .pc).toNat (encode i)) : cpuPoll s = exec i s := by
  simp only [cpuPoll, hs, cpuStep, fetch_of_readable h]

/-- Settles O32: the devices before the CPU leave PC and the bus as they were, so the CPU fetches the instruction. -/
theorem cpuRunsAtItsPlaceInRegistrationOrder : Obligations.CpuRunsAtItsPlaceInRegistrationOrder := by
  intro s m t i base pre pre' post hs hpre _ hread hp hm ht
  obtain ⟨m', es, hp', hk, _⟩ := pollDevices_keeps pre s.beginStep
  cases hp.symm.trans hp'
  have hregs : m.regs = s.beginStep.regs := pollDevices_regs hpre hp
  have hpc : m.reg .pc = s.reg .pc := congrArg (RegFile.get · .pc) hregs
  have hreadm : Readable m (m.reg .pc).toNat (encode i) := hpc ▸ hread.congr hk.busGet
  have hcpu : pollEntry ⟨base, .cpu⟩ m = (.next t, ⟨base, .cpu⟩) := by
    simp only [pollEntry, cpuPoll_of_readable hm hreadm, ht]
  rw [hs, pollDevices_append hp (by rw [hm]; rfl)]
  cases hf : t.status.isFault with
  | true => rw [pollDevices_cons_of_fault hcpu hf, if_pos rfl]
  | false => rw [pollDevices_cons_of_not_fault hcpu hf, if_neg Bool.false_ne_true]

/-- Settles O31: with no device before the CPU and none after, the poll phase is the instruction, which keeps the table. -/
theorem stepRunsTheDecodedInstruction : Obligations.StepRunsTheDecodedInstruction := by
  intro s i base hs hd hst hread
  obtain ⟨t, ht, hk⟩ := exec_keeps i s.beginStep
  have hp : pollDevices s.devices s.beginStep = (.next t, s.devices) := by
    rw [cpuRunsAtItsPlaceInRegistrationOrder s s.beginStep t i base [] [] [] hs (List.forall_mem_nil _) hst hread rfl hst ht,
      hs]
    split <;> rfl
  have htable : t.setDevices s.devices = t := congrArg t.setDevices hk.devices.symm
  exact ⟨t, ht, by rw [step_of_tableOk (by rw [hst]; rfl) hd hp, htable]⟩

end Sys2Proof.Machine

/-! PROOFS. The encoding: the decoder and the encoder agree, the assembler's table, and the bytes that decode to nothing
(spec/30_encoding.md R100 to R118). -/

namespace Sys2Proof.Laws.Encoding

/-- The lemma of each instruction, for all of them. -/
theorem statement : ∀ i : Instr, Statement i
  | .movRR r1 r2 => movRR r1 r2
  | .movRV8 r1 imm => movRV8 r1 imm
  | .movRV16 r1 imm => movRV16 r1 imm
  | .movRV32 r1 imm => movRV32 r1 imm
  | .movbRI r1 r2 => movbRI r1 r2
  | .movbRM r1 addr => movbRM r1 addr
  | .movwRI r1 r2 => movwRI r1 r2
  | .movwRM r1 addr => movwRM r1 addr
  | .movdRI r1 r2 => movdRI r1 r2
  | .movdRM r1 addr => movdRM r1 addr
  | .movbIR r1 r2 => movbIR r1 r2
  | .movbIV8 r1 imm => movbIV8 r1 imm
  | .movbII r1 r2 => movbII r1 r2
  | .movbIM r1 addr => movbIM r1 addr
  | .movwIR r1 r2 => movwIR r1 r2
  | .movwIV16 r1 imm => movwIV16 r1 imm
  | .movwII r1 r2 => movwII r1 r2
  | .movwIM r1 addr => movwIM r1 addr
  | .movdIR r1 r2 => movdIR r1 r2
  | .movdIV32 r1 imm => movdIV32 r1 imm
  | .movdII r1 r2 => movdII r1 r2
  | .movdIM r1 addr => movdIM r1 addr
  | .movbMR addr r2 => movbMR addr r2
  | .movbMV8 addr imm => movbMV8 addr imm
  | .movbMI addr r2 => movbMI addr r2
  | .movbMM addr1 addr2 => movbMM addr1 addr2
  | .movwMR addr r2 => movwMR addr r2
  | .movwMV16 addr imm => movwMV16 addr imm
  | .movwMI addr r2 => movwMI addr r2
  | .movwMM addr1 addr2 => movwMM addr1 addr2
  | .movdMR addr r2 => movdMR addr r2
  | .movdMV32 addr imm => movdMV32 addr imm
  | .movdMI addr r2 => movdMI addr r2
  | .movdMM addr1 addr2 => movdMM addr1 addr2
  | .orRR r1 r2 => orRR r1 r2
  | .orRV8 r1 imm => orRV8 r1 imm
  | .orRV16 r1 imm => orRV16 r1 imm
  | .orRV32 r1 imm => orRV32 r1 imm
  | .xorRR r1 r2 => xorRR r1 r2
  | .xorRV8 r1 imm => xorRV8 r1 imm
  | .xorRV16 r1 imm => xorRV16 r1 imm
  | .xorRV32 r1 imm => xorRV32 r1 imm
  | .andRR r1 r2 => andRR r1 r2
  | .andRV8 r1 imm => andRV8 r1 imm
  | .andRV16 r1 imm => andRV16 r1 imm
  | .andRV32 r1 imm => andRV32 r1 imm
  | .shlRR r1 r2 => shlRR r1 r2
  | .shlRV8 r1 imm => shlRV8 r1 imm
  | .shrRR r1 r2 => shrRR r1 r2
  | .shrRV8 r1 imm => shrRV8 r1 imm
  | .notR r1 => notR r1
  | .addRR r1 r2 => addRR r1 r2
  | .addRV8 r1 imm => addRV8 r1 imm
  | .addRV16 r1 imm => addRV16 r1 imm
  | .addRV32 r1 imm => addRV32 r1 imm
  | .subRR r1 r2 => subRR r1 r2
  | .subRV8 r1 imm => subRV8 r1 imm
  | .subRV16 r1 imm => subRV16 r1 imm
  | .subRV32 r1 imm => subRV32 r1 imm
  | .cmpRR r1 r2 => cmpRR r1 r2
  | .cmpRV8 r1 imm => cmpRV8 r1 imm
  | .cmpRV16 r1 imm => cmpRV16 r1 imm
  | .cmpRV32 r1 imm => cmpRV32 r1 imm
  | .mulRR r1 r2 => mulRR r1 r2
  | .mulRV8 r1 imm => mulRV8 r1 imm
  | .mulRV16 r1 imm => mulRV16 r1 imm
  | .mulRV32 r1 imm => mulRV32 r1 imm
  | .idivRR r1 r2 => idivRR r1 r2
  | .idivRV8 r1 imm => idivRV8 r1 imm
  | .idivRV16 r1 imm => idivRV16 r1 imm
  | .idivRV32 r1 imm => idivRV32 r1 imm
  | .modRR r1 r2 => modRR r1 r2
  | .modRV8 r1 imm => modRV8 r1 imm
  | .modRV16 r1 imm => modRV16 r1 imm
  | .modRV32 r1 imm => modRV32 r1 imm
  | .incR r1 => incR r1
  | .decR r1 => decR r1
  | .bzR r1 => bzR r1
  | .bzV32 imm => bzV32 imm
  | .bnzR r1 => bnzR r1
  | .bnzV32 imm => bnzV32 imm
  | .bnegR r1 => bnegR r1
  | .bnegV32 imm => bnegV32 imm
  | .bposR r1 => bposR r1
  | .bposV32 imm => bposV32 imm
  | .bgtR r1 => bgtR r1
  | .bgtV32 imm => bgtV32 imm
  | .bgteR r1 => bgteR r1
  | .bgteV32 imm => bgteV32 imm
  | .bltR r1 => bltR r1
  | .bltV32 imm => bltV32 imm
  | .blteR r1 => blteR r1
  | .blteV32 imm => blteV32 imm
  | .bvR r1 => bvR r1
  | .bvV32 imm => bvV32 imm
  | .bnvR r1 => bnvR r1
  | .bnvV32 imm => bnvV32 imm
  | .jmpR r1 => jmpR r1
  | .jmpV32 imm => jmpV32 imm
  | .jsrR r1 => jsrR r1
  | .jsrV32 imm => jsrV32 imm
  | .ret => ret
  | .sysR r1 => sysR r1
  | .sysV8 imm => sysV8 imm
  | .iret => iret
  | .pushbR r1 => pushbR r1
  | .pushbV8 imm => pushbV8 imm
  | .pushwR r1 => pushwR r1
  | .pushwV16 imm => pushwV16 imm
  | .pushdR r1 => pushdR r1
  | .pushdV32 imm => pushdV32 imm
  | .pushA => pushA
  | .popbR r1 => popbR r1
  | .popwR r1 => popwR r1
  | .popdR r1 => popdR r1
  | .popA => popA
  | .popxR r1 => popxR r1
  | .popxV8 imm => popxV8 imm
  | .popxV16 imm => popxV16 imm
  | .sret => sret
  | .nop => nop
  | .halt => halt
  | .dbg => dbg
  | .swapRR r1 r2 => swapRR r1 r2
  | .cmpR r1 => cmpR r1

end Sys2Proof.Laws.Encoding

namespace Sys2Proof

/-! ### The opcode map, both ways (R103, R111) -/

/-- An opcode byte is known by its number. -/
theorem eq_ofNat_of_toNat_eq {op : Byte} {n : Nat} (h : op.toNat = n) : op = BitVec.ofNat 8 n := by
  rw [← h, BitVec.ofNat_toNat, BitVec.setWidth_eq]

/-- For each operand the register it names, if it is of a register kind. -/
def Instr.registers (i : Instr) : List (Option Reg) := i.operands.map Operand.register?

/-- The instructions of a row name the registers that its format has, in operand order. -/
def Form.RegistersFit : Form → Prop
  | .none mk => mk.registers = []
  | .r mk => ∀ r, (mk r).registers = [some r]
  | .v8 mk => ∀ v, (mk v).registers = [Option.none]
  | .v16 mk => ∀ v, (mk v).registers = [Option.none]
  | .v32 mk => ∀ v, (mk v).registers = [Option.none]
  | .rr mk => ∀ r1 r2, (mk r1 r2).registers = [some r1, some r2]
  | .rV8 mk => ∀ r v, (mk r v).registers = [some r, Option.none]
  | .rV16 mk => ∀ r v, (mk r v).registers = [some r, Option.none]
  | .rV32 mk => ∀ r v, (mk r v).registers = [some r, Option.none]
  | .rM mk => ∀ r a, (mk r a).registers = [some r, Option.none]
  | .mR mk => ∀ a r, (mk a r).registers = [Option.none, some r]
  | .mV8 mk => ∀ a v, (mk a v).registers = [Option.none, Option.none]
  | .mV16 mk => ∀ a v, (mk a v).registers = [Option.none, Option.none]
  | .mV32 mk => ∀ a v, (mk a v).registers = [Option.none, Option.none]
  | .mM mk => ∀ a b, (mk a b).registers = [Option.none, Option.none]

/-- What the row of an opcode says of the instructions it builds: their encoding is the bytes of its format, and their
operands name the registers that its format has. -/
structure RowFits (op : Byte) (form : Form) : Prop where
  encode : ∀ i bs, HasFormat op form i bs → encode i = bs
  registers : form.RegistersFit

/-- The decoder's table agrees with the encoder in each of its 125 rows; in the last case the byte has no row. -/
theorem formOf_rowFits {op : Byte} {form : Form} (hf : formOf op = some form) : RowFits op form := by
  unfold formOf at hf
  split at hf
  case h_126 => cases hf
  all_goals
    next hop =>
    cases hf
    cases eq_ofNat_of_toNat_eq hop
    constructor
    case encode =>
      intro i bs h
      cases h
      rfl
    case registers =>
      dsimp only [Form.RegistersFit]
      intros
      rfl

theorem encode_of_hasFormat {op : Byte} {form : Form} {i : Instr} {bs : List Byte} (hf : formOf op = some form)
    (h : HasFormat op form i bs) : encode i = bs :=
  (formOf_rowFits hf).encode i bs h

/-- Bytes in a format begin with the opcode byte (R100). -/
theorem HasFormat.head?_eq {op : Byte} {form : Form} {i : Instr} {bs : List Byte} (h : HasFormat op form i bs) :
    bs.head? = some op := by
  cases h <;> rfl

theorem opcode_of_hasFormat {op : Byte} {form : Form} {i : Instr} {bs : List Byte} (hf : formOf op = some form)
    (h : HasFormat op form i bs) : i.opcode = op := by
  have hhead : (encode i).head? = some op := encode_of_hasFormat hf h ▸ h.head?_eq
  exact Option.some.inj hhead

/-- Every format has an instruction. -/
theorem exists_hasFormat (op : Byte) (form : Form) : ∃ i bs, HasFormat op form i bs := by
  cases form with
  | none mk => exact ⟨_, _, .none mk⟩
  | r mk => exact ⟨_, _, .r mk default⟩
  | v8 mk => exact ⟨_, _, .v8 mk default⟩
  | v16 mk => exact ⟨_, _, .v16 mk default⟩
  | v32 mk => exact ⟨_, _, .v32 mk default⟩
  | rr mk => exact ⟨_, _, .rr mk default default⟩
  | rV8 mk => exact ⟨_, _, .rV8 mk default default⟩
  | rV16 mk => exact ⟨_, _, .rV16 mk default default⟩
  | rV32 mk => exact ⟨_, _, .rV32 mk default default⟩
  | rM mk => exact ⟨_, _, .rM mk default default⟩
  | mR mk => exact ⟨_, _, .mR mk default default⟩
  | mV8 mk => exact ⟨_, _, .mV8 mk default default⟩
  | mV16 mk => exact ⟨_, _, .mV16 mk default default⟩
  | mV32 mk => exact ⟨_, _, .mV32 mk default default⟩
  | mM mk => exact ⟨_, _, .mM mk default default⟩

/-! ### What a decoder that succeeded has read (R104, R107) -/

/-- The reader has the bytes from `k` up. -/
def AgreesAt (get : ByteReader) (k : Nat) (bs : List Byte) : Prop := ∀ j b, bs[j]? = some b → get (k + j) = some b

section Read
variable {get : ByteReader} {k : Nat}

theorem AgreesAt.agrees {bs : List Byte} (h : AgreesAt get 0 bs) : Agrees get bs := fun j b hb =>
  Nat.zero_add j ▸ h j b hb

theorem agreesAt_cons {b : Byte} {bs : List Byte} (h : get k = some b) (hs : AgreesAt get (k + 1) bs) :
    AgreesAt get k (b :: bs) := by
  intro j c hc
  cases j with
  | zero => exact h.trans hc
  | succ j => exact Nat.succ_add_eq_add_succ k j ▸ hs j c hc

theorem agreesAt_singleton {b : Byte} (h : get k = some b) : AgreesAt get k [b] :=
  agreesAt_cons h fun _ _ hc => by cases hc

theorem AgreesAt.append {bs cs : List Byte} (hb : AgreesAt get k bs) (hc : AgreesAt get (k + bs.length) cs) :
    AgreesAt get k (bs ++ cs) := by
  intro j c h
  by_cases hj : j < bs.length
  · exact hb j c (by rwa [List.getElem?_append_left hj] at h)
  · have hle : bs.length ≤ j := Nat.not_lt.1 hj
    rw [List.getElem?_append_right hle] at h
    have hget := hc _ c h
    rwa [Nat.add_assoc, Nat.add_sub_cancel' hle] at hget

theorem byte_zero_append {w : Nat} (x : BitVec w) (b : Byte) : (x ++ b).extractLsb' 0 8 = b :=
  BitVec.extractLsb'_append_eq_right

theorem byte_succ_append {w : Nat} (k : Nat) (x : BitVec w) (b : Byte) :
    (x ++ b).extractLsb' (k + 8) 8 = x.extractLsb' k 8 := by
  rw [BitVec.extractLsb'_append_eq_of_le (Nat.le_add_left 8 k), Nat.add_sub_cancel]

/-- The bytes of a field put together from bytes are those bytes (R107). -/
theorem bytes16_append (b0 b1 : Byte) : bytes16 (b1 ++ b0) = [b0, b1] := by
  rw [bytes16, byte_zero_append b1 b0, byte_succ_append 0 b1 b0, BitVec.extractLsb'_eq_self]

theorem bytes32_append (b0 b1 b2 b3 : Byte) : bytes32 (b3 ++ b2 ++ b1 ++ b0) = [b0, b1, b2, b3] := by
  rw [bytes32, byte_zero_append (b3 ++ b2 ++ b1) b0, byte_succ_append 0 (b3 ++ b2 ++ b1) b0,
    byte_succ_append 8 (b3 ++ b2 ++ b1) b0, byte_succ_append 16 (b3 ++ b2 ++ b1) b0,
    byte_zero_append (b3 ++ b2) b1, byte_succ_append 0 (b3 ++ b2) b1, byte_succ_append 8 (b3 ++ b2) b1,
    byte_zero_append b3 b2, byte_succ_append 0 b3 b2, BitVec.extractLsb'_eq_self]

/-- Of two decoders in a row that succeed both have. -/
theorem bind_ok {α β : Type} {x : Except DecodeError α} {f : α → Except DecodeError β} {b : β} :
    x >>= f = .ok b → ∃ a, x = .ok a ∧ f a = .ok b := by
  cases x with
  | error e => exact fun h => by cases h
  | ok a => exact fun h => ⟨a, rfl, h⟩

theorem readByte_ok {b : Byte} (h : readByte get k = .ok b) : get k = some b := by
  unfold readByte at h
  split at h
  · cases h
    assumption
  · cases h

theorem readField16_ok {v : BitVec 16} (h : readField16 get k = .ok v) : AgreesAt get k (bytes16 v) := by
  obtain ⟨b0, h0, h⟩ := bind_ok h
  obtain ⟨b1, h1, h⟩ := bind_ok h
  cases h
  rw [bytes16_append]
  exact agreesAt_cons (readByte_ok h0) (agreesAt_singleton (readByte_ok h1))

theorem readField32_ok {v : Word} (h : readField32 get k = .ok v) : AgreesAt get k (bytes32 v) := by
  obtain ⟨b0, h0, h⟩ := bind_ok h
  obtain ⟨b1, h1, h⟩ := bind_ok h
  obtain ⟨b2, h2, h⟩ := bind_ok h
  obtain ⟨b3, h3, h⟩ := bind_ok h
  cases h
  rw [bytes32_append]
  exact agreesAt_cons (readByte_ok h0) (agreesAt_cons (readByte_ok h1)
    (agreesAt_cons (readByte_ok h2) (agreesAt_singleton (readByte_ok h3))))

theorem zero_append_setWidth {b : Byte} (h : b.toNat ≤ 0x0F) : 0#4 ++ b.setWidth 4 = b := by
  have hval : (0#4 ++ b.setWidth 4).toNat = b.toNat := by
    rw [BitVec.toNat_append, BitVec.toNat_setWidth, Nat.mod_eq_of_lt (by omega)]
    simp
  exact BitVec.eq_of_toNat_eq hval

/-- A lone register byte that names a register is its index with a zero high nibble (R105). -/
theorem readLoneReg_ok {op : Byte} {r : Reg} (h : readLoneReg op get k = .ok r) : get k = some (0#4 ++ r.index) := by
  obtain ⟨b, hb, h⟩ := bind_ok h
  split at h
  case isTrue hle =>
    cases h
    rw [Reg.index_ofIndex, zero_append_setWidth hle]
    exact readByte_ok hb
  case isFalse => cases h

/-- A pair byte is the two indices it names (R102, R106). -/
theorem pair_append (b : Byte) :
    (Reg.ofIndex (b.extractLsb' 4 4)).index ++ (Reg.ofIndex (b.extractLsb' 0 4)).index = b := by
  rw [Reg.index_ofIndex, Reg.index_ofIndex, BitVec.extractLsb'_append_extractLsb'_eq_extractLsb' (by rfl),
    BitVec.extractLsb'_eq_self]

/-- The instruction that a format's operand bytes decode to is in that format, with the bytes that were read. -/
theorem hasFormat_of_decode {op : Byte} {form : Form} {i : Instr} (h0 : get 0 = some op)
    (h : form.decode op get = .ok i) : ∃ bs, HasFormat op form i bs ∧ AgreesAt get 0 bs := by
  cases form with
  | none mk =>
    cases h
    exact ⟨_, .none _, agreesAt_singleton h0⟩
  | r mk =>
    obtain ⟨r, hr, h⟩ := bind_ok h
    cases h
    exact ⟨_, .r mk r, agreesAt_cons h0 (agreesAt_singleton (readLoneReg_ok hr))⟩
  | v8 mk =>
    obtain ⟨v, hv, h⟩ := bind_ok h
    cases h
    exact ⟨_, .v8 mk v, agreesAt_cons h0 (agreesAt_singleton (readByte_ok hv))⟩
  | v16 mk =>
    obtain ⟨v, hv, h⟩ := bind_ok h
    cases h
    exact ⟨_, .v16 mk v, agreesAt_cons h0 (readField16_ok hv)⟩
  | v32 mk =>
    obtain ⟨v, hv, h⟩ := bind_ok h
    cases h
    exact ⟨_, .v32 mk v, agreesAt_cons h0 (readField32_ok hv)⟩
  | rr mk =>
    obtain ⟨b, hb, h⟩ := bind_ok h
    cases h
    refine ⟨_, .rr mk _ _, agreesAt_cons h0 (agreesAt_singleton ?_)⟩
    rw [pair_append]
    exact readByte_ok hb
  | rV8 mk =>
    obtain ⟨r, hr, h⟩ := bind_ok h
    obtain ⟨v, hv, h⟩ := bind_ok h
    cases h
    exact ⟨_, .rV8 mk r v, agreesAt_cons h0 (agreesAt_cons (readLoneReg_ok hr) (agreesAt_singleton (readByte_ok hv)))⟩
  | rV16 mk =>
    obtain ⟨r, hr, h⟩ := bind_ok h
    obtain ⟨v, hv, h⟩ := bind_ok h
    cases h
    exact ⟨_, .rV16 mk r v, agreesAt_cons h0 (agreesAt_cons (readLoneReg_ok hr) (readField16_ok hv))⟩
  | rV32 mk =>
    obtain ⟨r, hr, h⟩ := bind_ok h
    obtain ⟨v, hv, h⟩ := bind_ok h
    cases h
    exact ⟨_, .rV32 mk r v, agreesAt_cons h0 (agreesAt_cons (readLoneReg_ok hr) (readField32_ok hv))⟩
  | rM mk =>
    obtain ⟨r, hr, h⟩ := bind_ok h
    obtain ⟨a, ha, h⟩ := bind_ok h
    cases h
    exact ⟨_, .rM mk r a, agreesAt_cons h0 (agreesAt_cons (readLoneReg_ok hr) (readField32_ok ha))⟩
  | mR mk =>
    obtain ⟨a, ha, h⟩ := bind_ok h
    obtain ⟨r, hr, h⟩ := bind_ok h
    cases h
    exact ⟨_, .mR mk a r, (agreesAt_cons h0 (readField32_ok ha)).append (agreesAt_singleton (readLoneReg_ok hr))⟩
  | mV8 mk =>
    obtain ⟨a, ha, h⟩ := bind_ok h
    obtain ⟨v, hv, h⟩ := bind_ok h
    cases h
    exact ⟨_, .mV8 mk a v, (agreesAt_cons h0 (readField32_ok ha)).append (agreesAt_singleton (readByte_ok hv))⟩
  | mV16 mk =>
    obtain ⟨a, ha, h⟩ := bind_ok h
    obtain ⟨v, hv, h⟩ := bind_ok h
    cases h
    exact ⟨_, .mV16 mk a v, (agreesAt_cons h0 (readField32_ok ha)).append (readField16_ok hv)⟩
  | mV32 mk =>
    obtain ⟨a, ha, h⟩ := bind_ok h
    obtain ⟨v, hv, h⟩ := bind_ok h
    cases h
    exact ⟨_, .mV32 mk a v, (agreesAt_cons h0 (readField32_ok ha)).append (readField32_ok hv)⟩
  | mM mk =>
    obtain ⟨a, ha, h⟩ := bind_ok h
    obtain ⟨b, hb, h⟩ := bind_ok h
    cases h
    exact ⟨_, .mM mk a b, (agreesAt_cons h0 (readField32_ok ha)).append (readField32_ok hb)⟩

/-- A decoder that answers has read an opcode byte with a row, and then that row's operand bytes (R104). -/
theorem decode_ok {i : Instr} (h : decode get = .ok i) :
    ∃ op form, get 0 = some op ∧ formOf op = some form ∧ form.decode op get = .ok i := by
  obtain ⟨op, hop, h⟩ := bind_ok h
  cases hf : formOf op with
  | none => rw [hf] at h; cases h
  | some form => rw [hf] at h; exact ⟨op, form, readByte_ok hop, hf, h⟩

end Read

/-- Settles O1: the encoding is in the format of its opcode's row, and each format is read back. -/
theorem decodeOfEncodeIsTheInstruction : Obligations.DecodeOfEncodeIsTheInstruction :=
  fun _ _ h => decode_of_agrees_encode h

/-- Settles O2: the bytes read are in the format of their opcode's row, and such bytes are the encoding. -/
theorem encodeOfDecodeIsTheBytesRead : Obligations.EncodeOfDecodeIsTheBytesRead := by
  intro i get h
  obtain ⟨op, form, h0, hf, hd⟩ := decode_ok h
  obtain ⟨bs, hformat, hbs⟩ := hasFormat_of_decode h0 hd
  rw [encode_of_hasFormat hf hformat]
  exact hbs.agrees

/-! ### Register bytes (R105, R106) -/

/-- The place and the register of a lone register byte, from the registers that the operands name (R105). -/
def loneOf : List (Option Reg) → Option (Nat × Reg)
  | [some r] => some (1, r)
  | [some r, none] => some (1, r)
  | [none, some r] => some (5, r)
  | _ => none

theorem Instr.loneRegister_eq (i : Instr) : i.loneRegister = loneOf i.registers := by
  unfold Instr.loneRegister Instr.registers
  match i.operands with
  | [] => rfl
  | [o] => cases o <;> rfl
  | [o1, o2] => cases o1 <;> cases o2 <;> rfl
  | o1 :: o2 :: o3 :: os =>
    simp only [List.map_cons]
    cases o1.register? <;> cases o2.register? <;> rfl

/-- A pair of registers stands in the pair format only. -/
theorem form_of_registers_pair {op : Byte} {form : Form} {i : Instr} {bs : List Byte} {r1 r2 : Reg}
    (h : HasFormat op form i bs) (hfit : form.RegistersFit) (hr : i.registers = [some r1, some r2]) :
    (∃ mk, form = .rr mk) ∧ bs = [op, r1.index ++ r2.index] := by
  cases h with
  | none => cases hfit.symm.trans hr
  | r mk r => cases (hfit r).symm.trans hr
  | v8 mk v => cases (hfit v).symm.trans hr
  | v16 mk v => cases (hfit v).symm.trans hr
  | v32 mk v => cases (hfit v).symm.trans hr
  | rr mk q1 q2 =>
    cases (hfit q1 q2).symm.trans hr
    exact ⟨⟨mk, rfl⟩, rfl⟩
  | rV8 mk r v => cases (hfit r v).symm.trans hr
  | rV16 mk r v => cases (hfit r v).symm.trans hr
  | rV32 mk r v => cases (hfit r v).symm.trans hr
  | rM mk r a => cases (hfit r a).symm.trans hr
  | mR mk a r => cases (hfit a r).symm.trans hr
  | mV8 mk a v => cases (hfit a v).symm.trans hr
  | mV16 mk a v => cases (hfit a v).symm.trans hr
  | mV32 mk a v => cases (hfit a v).symm.trans hr
  | mM mk a b => cases (hfit a b).symm.trans hr

/-- The byte at the place `k` is a lone register byte of an instruction of opcode `op`, which has these bytes: it is the
index of `r`, and one above 0x0F in its place is illegal for every reader that has the bytes below it (R105). -/
structure LoneAt (op : Byte) (bs : List Byte) (k : Nat) (r : Reg) : Prop where
  byte : bs[k]? = some (0#4 ++ r.index)
  illegal : ∀ (get : ByteReader) (b : Byte), (∀ j c, j < k → bs[j]? = some c → get j = some c) → get k = some b →
    0x10 ≤ b.toNat → decode get = .error (.illegalInstruction op)

/-- Of the six formats with a lone register byte, five have it as byte 1 and one as byte 5, behind the embedded address
(R103). -/
theorem loneAt_of_hasFormat {op : Byte} {form : Form} {i : Instr} {bs : List Byte} {k : Nat} {r : Reg}
    (hf : formOf op = some form) (h : HasFormat op form i bs) (hl : i.loneRegister = some (k, r)) : LoneAt op bs k r := by
  have hfit := (formOf_rowFits hf).registers
  rw [Instr.loneRegister_eq] at hl
  cases h with
  | none => rw [hfit] at hl; cases hl
  | r mk q =>
    rw [hfit q] at hl
    cases hl
    exact ⟨rfl, fun _ _ h hb => decode_r_illegal hf (h 0 _ Nat.one_pos rfl) hb⟩
  | v8 mk v => rw [hfit v] at hl; cases hl
  | v16 mk v => rw [hfit v] at hl; cases hl
  | v32 mk v => rw [hfit v] at hl; cases hl
  | rr mk q1 q2 => rw [hfit q1 q2] at hl; cases hl
  | rV8 mk q v =>
    rw [hfit q v] at hl
    cases hl
    exact ⟨rfl, fun _ _ h hb => decode_rV8_illegal hf (h 0 _ Nat.one_pos rfl) hb⟩
  | rV16 mk q v =>
    rw [hfit q v] at hl
    cases hl
    exact ⟨rfl, fun _ _ h hb => decode_rV16_illegal hf (h 0 _ Nat.one_pos rfl) hb⟩
  | rV32 mk q v =>
    rw [hfit q v] at hl
    cases hl
    exact ⟨rfl, fun _ _ h hb => decode_rV32_illegal hf (h 0 _ Nat.one_pos rfl) hb⟩
  | rM mk q a =>
    rw [hfit q a] at hl
    cases hl
    exact ⟨rfl, fun _ _ h hb => decode_rM_illegal hf (h 0 _ Nat.one_pos rfl) hb⟩
  | mR mk a q =>
    rw [hfit a q] at hl
    cases hl
    refine ⟨rfl, fun _ _ h hb => decode_mR_illegal (a := a) hf (fun j c hc => ?_) hb⟩
    have hj : j < (op :: bytes32 a).length := (List.getElem?_eq_some_iff.1 hc).1
    exact h j c hj ((List.getElem?_append_left hj).trans hc)
  | mV8 mk a v => rw [hfit a v] at hl; cases hl
  | mV16 mk a v => rw [hfit a v] at hl; cases hl
  | mV32 mk a v => rw [hfit a v] at hl; cases hl
  | mM mk a b => rw [hfit a b] at hl; cases hl

/-- Settles O5: the pair format, whose byte has two nibbles that each name a register. -/
theorem registerPairByteIsLegalAtEveryValue : Obligations.RegisterPairByteIsLegalAtEveryValue := by
  intro i r1 r2 hr
  obtain ⟨form, hf, h⟩ := hasFormat_encode i
  obtain ⟨⟨mk, rfl⟩, hbytes⟩ := form_of_registers_pair h (formOf_rowFits hf).registers hr
  refine ⟨hbytes, fun get b h0 h1 => ?_⟩
  refine ⟨mk (Reg.ofIndex (b.extractLsb' 4 4)) (Reg.ofIndex (b.extractLsb' 0 4)), ?_, opcode_of_hasFormat hf (.rr mk _ _),
    (formOf_rowFits hf).registers _ _⟩
  rw [decode_form hf h0, Form.decode, readByte_of h1]
  rfl

/-! ### Opcode bytes with no row (R112) -/

/-- The unassigned bytes are those without a row, byte by byte. -/
theorem unassignedOpcode_eq : ∀ op : Byte, unassignedOpcode op = (formOf op).isNone := by
  decide

theorem unassignedOpcode_count : ((List.range 256).filter fun n => unassignedOpcode (BitVec.ofNat 8 n)).length = 131 := by
  have hhalf : List.range 128 = List.range 64 ++ (List.range 64).map (64 + ·) := @List.range_add 64 64
  have hwhole : List.range 256 = List.range 128 ++ (List.range 128).map (128 + ·) := @List.range_add 128 128
  simp only [hwhole, hhalf, List.map_append, List.filter_append, List.length_append]
  decide

theorem unassignedOpcode_opcode (i : Instr) : unassignedOpcode i.opcode = false := by
  obtain ⟨form, hf, _⟩ := hasFormat_encode i
  rw [unassignedOpcode_eq, hf]
  rfl

theorem exists_opcode_eq {op : Byte} (h : unassignedOpcode op = false) : ∃ i : Instr, i.opcode = op := by
  rw [unassignedOpcode_eq, Option.isNone_eq_false_iff, Option.isSome_iff_exists] at h
  obtain ⟨form, hf⟩ := h
  obtain ⟨i, bs, hi⟩ := exists_hasFormat op form
  exact ⟨i, opcode_of_hasFormat hf hi⟩

theorem decode_of_unassigned {get : ByteReader} {op : Byte} (h0 : get 0 = some op) (h : unassignedOpcode op = true) :
    decode get = .error (.illegalInstruction op) := by
  rw [unassignedOpcode_eq, Option.isNone_iff_eq_none] at h
  rw [decode, readByte_of h0]
  show (match formOf op with | none => _ | some form => _) = _
  rw [h]

/-! ### The assembler's table (R116, R118) -/

/-- No row is one of a branch synonym (R116). -/
theorem opcodeMap_not_synonym : ∀ row ∈ opcodeMap, row.mnemonic ≠ .beq ∧ row.mnemonic ≠ .bneq := by
  simp only [opcodeMap, List.forall_mem_append]
  decide

/-- No row has more than two operands (R101), nor an immediate as an operand 1 that is written (R115). -/
theorem opcodeMap_operands : ∀ row ∈ opcodeMap, row.kinds.length ≤ 2 ∧
    ∀ k ∈ row.kinds.head?, (row.mnemonic.writesOperand1 && k.isImmediate) = false := by
  simp only [opcodeMap, List.forall_mem_append]
  decide

/-- The legal operand forms are those of the assembler's rows (R111). -/
theorem legalForms_eq : legalForms = opcodeMap.map fun row => (row.mnemonic, row.kinds) := by
  simp only [opcodeMap, List.map_append]
  rfl

/-- No mnemonic of an instruction is a branch synonym (R116). -/
theorem Instr.canonical_mnemonic (i : Instr) : i.mnemonic.canonical = i.mnemonic := by
  cases i <;> rfl

/-- The row that the assembler finds has the term's mnemonic and kinds, and gives the opcode byte. -/
theorem assemble_eq_some {x : AsmInstr} {bs : List Byte} (h : assemble x = some bs) :
    ∃ row ∈ opcodeMap, row.mnemonic = x.mnemonic.canonical ∧ row.kinds = x.operands.map Operand.kind ∧
      bs = row.opcode :: operandBytes x.operands := by
  obtain ⟨row, hrow, rfl⟩ := Option.map_eq_some_iff.1 h
  have hfound := List.find?_some hrow
  rw [Bool.and_eq_true, beq_iff_eq, beq_iff_eq] at hfound
  obtain ⟨hm, hk⟩ := hfound
  exact ⟨row, List.mem_of_find?_eq_some hrow, hm, hk, rfl⟩

theorem assemble_asm (i : Instr) : assemble i.asm = some (encode i) := by
  obtain ⟨_, _, _, _, h⟩ := Laws.Encoding.statement i
  exact h

/-- The row of an instruction. -/
theorem exists_row (i : Instr) : ∃ row ∈ opcodeMap, row.opcode = i.opcode ∧ row.mnemonic = i.mnemonic ∧
    row.kinds = i.operands.map Operand.kind := by
  obtain ⟨row, hmem, hm, hk, hbytes⟩ := assemble_eq_some (assemble_asm i)
  exact ⟨row, hmem, (List.cons.inj hbytes).1.symm, hm.trans i.canonical_mnemonic, hk⟩

/-- The opcode bytes with a row, in ascending order. -/
def assignedOpcodes : List Byte :=
  ((List.range 256).filter fun n => !unassignedOpcode (BitVec.ofNat 8 n)).map (BitVec.ofNat 8)

theorem mem_assignedOpcodes {op : Byte} (h : op ∈ assignedOpcodes) : unassignedOpcode op = false := by
  obtain ⟨n, hn, rfl⟩ := List.mem_map.1 h
  simpa using (List.mem_filter.1 hn).2

theorem assignedOpcodes_nodup : assignedOpcodes.Nodup := by
  refine (List.nodup_range.filter _).map_on fun m hm n hn h => ?_
  have hm' : m < 256 := List.mem_range.1 (List.mem_filter.1 hm).1
  have hn' : n < 256 := List.mem_range.1 (List.mem_filter.1 hn).1
  have hval := congrArg BitVec.toNat h
  rwa [BitVec.toNat_ofNat, BitVec.toNat_ofNat, Nat.mod_eq_of_lt hm', Nat.mod_eq_of_lt hn'] at hval

theorem assignedOpcodes_length : assignedOpcodes.length = 125 := by
  have hsum := List.length_eq_length_filter_add (l := List.range 256) fun n => unassignedOpcode (BitVec.ofNat 8 n)
  rw [unassignedOpcode_count, List.length_range] at hsum
  rw [assignedOpcodes, List.length_map]
  omega

/-- Each of the 125 assigned bytes has a row, and there are 125 rows. -/
theorem opcodeMap_nodup : (opcodeMap.map Row.opcode).Nodup := by
  have hsub : assignedOpcodes ⊆ opcodeMap.map Row.opcode := fun op hop => by
    obtain ⟨i, rfl⟩ := exists_opcode_eq (mem_assignedOpcodes hop)
    obtain ⟨row, hrow, hopcode, _⟩ := exists_row i
    exact List.mem_map.2 ⟨row, hrow, hopcode⟩
  have hlen : (opcodeMap.map Row.opcode).length ≤ assignedOpcodes.length :=
    Nat.le_of_eq (assignedOpcodes_length.symm ▸ rfl)
  exact ((List.subperm_of_subset assignedOpcodes_nodup hsub).perm_of_length_le hlen).nodup_iff.1 assignedOpcodes_nodup

/-- How many operand bytes operands of these kinds take: two register kinds share one (R102, R103). -/
def operandsSize : List OperandKind → Nat
  | [.reg, .reg] | [.reg, .regInd] | [.regInd, .reg] | [.regInd, .regInd] => 1
  | kinds => (kinds.map OperandKind.size).sum

theorem Operand.length_bytes (o : Operand) : o.bytes.length = o.kind.size := by
  cases o <;> rfl

/-- The kinds alone decide how many operand bytes there are (R114). -/
theorem length_operandBytes (ops : List Operand) :
    (operandBytes ops).length = operandsSize (ops.map Operand.kind) := by
  match ops with
  | [] => rfl
  | [o] => cases o <;> rfl
  | [o1, o2] => cases o1 <;> cases o2 <;> rfl
  | o1 :: o2 :: o3 :: os =>
    simp [operandBytes, operandsSize, Operand.length_bytes, Function.comp_def]

/-- Settles O6: the row is found by mnemonic and kinds, and the kinds decide the number of operand bytes. -/
theorem assemblerFindsTheRowByKindsAlone : Obligations.AssemblerFindsTheRowByKindsAlone := by
  refine ⟨assemble_asm, fun x y bs hm hk hx => ?_, fun _ => ⟨rfl, rfl⟩, opcodeMap_nodup, opcodeMap_not_synonym⟩
  obtain ⟨row, hrow, rfl⟩ := Option.map_eq_some_iff.1 hx
  refine ⟨row.opcode :: operandBytes y.operands, ?_, rfl, ?_⟩
  · rw [hm, hk] at hrow
    rw [assemble, hrow]
    rfl
  · rw [List.length_cons, List.length_cons, length_operandBytes, length_operandBytes, hk]

/-- Settles O9: the opcode has one row, which has the mnemonic and the kinds, and the kinds decide the length. -/
theorem opcodeAloneDecidesTheLength : Obligations.OpcodeAloneDecidesTheLength := by
  refine ⟨fun i j h => ?_, fun i => ?_⟩
  · obtain ⟨row, hrow, hop, hm, hk⟩ := exists_row i
    obtain ⟨row', hrow', hop', hm', hk'⟩ := exists_row j
    have heq : row = row' :=
      List.inj_on_of_nodup_map opcodeMap_nodup hrow hrow' (hop.trans (h.trans hop'.symm))
    subst heq
    have hkinds : i.operands.map Operand.kind = j.operands.map Operand.kind := hk.symm.trans hk'
    exact ⟨hm.symm.trans hm', hkinds, by simp only [Instr.length, hkinds]⟩
  · obtain ⟨hhead, hlength, hnine, _, _⟩ := Laws.Encoding.statement i
    exact ⟨hlength, hlength ▸ Nat.succ_pos _, of_decide_eq_true hnine, hhead⟩

/-! ### Destinations (R115, R156) -/

/-- The operand that an instruction writes as operand 1 is no immediate, by its row (R115). -/
theorem head_not_immediate {i : Instr} {o : Operand} (ho : i.operands.head? = some o)
    (hw : i.mnemonic.writesOperand1 = true) : o.kind.isImmediate = false := by
  obtain ⟨row, hrow, _, hm, hk⟩ := exists_row i
  have hhead : row.kinds.head? = some o.kind := by rw [hk, List.head?_map, ho]; rfl
  obtain ⟨_, hdest⟩ := opcodeMap_operands row hrow
  simpa [hm, hw] using hdest o.kind hhead

/-- An instruction has its row's operands, so its term passes the three checks (R101, R115, R116). -/
theorem Instr.wellFormed (i : Instr) : i.WellFormed := by
  obtain ⟨row, hrow, _, hm, hk⟩ := exists_row i
  have harity : i.asm.arityOk = true := by
    obtain ⟨hle, _⟩ := opcodeMap_operands row hrow
    rw [hk, List.length_map] at hle
    exact decide_eq_true hle
  have hform : i.asm.formExists = true := by
    rw [AsmInstr.formExists, legalForms_eq, List.contains_iff_mem, List.mem_map]
    exact ⟨row, hrow, by rw [hm, hk, ← i.canonical_mnemonic]; rfl⟩
  have hdest : i.asm.destinationAddressable = true := by
    unfold AsmInstr.destinationAddressable
    split
    case h_1 => rfl
    case h_2 o os ho =>
      have ho' : i.operands.head? = some o := congrArg List.head? ho
      cases hw : i.mnemonic.writesOperand1 with
      | false => simp [Instr.asm, i.canonical_mnemonic, hw]
      | true => simp [head_not_immediate ho' hw]
  rw [Instr.WellFormed, AsmInstr.wellFormed, harity, hform, hdest]
  rfl

end Sys2Proof

namespace Sys2Proof.Machine

/-! ### Illegal bytes at PC (R105, R112, R142) -/

theorem cpuStep_of_illegal {s : State} {op : Byte} (h : decode (fetchReader s) = .error (.illegalInstruction op)) :
    cpuStep s = .next (pollFault s (.illegalInstruction op)) := by
  have hf : fetch s = .error (.illegalInstruction op) := by simp only [fetch, h]
  simp only [cpuStep, hf, takeFault_poll]

/-- Settles O3: the unassigned bytes are those without a row, and every row builds an instruction. -/
theorem unassignedOpcodesFault : Obligations.UnassignedOpcodesFault :=
  ⟨fun _ _ hop hun => cpuStep_of_illegal (decode_of_unassigned (fetchReader_of_ok hop) hun),
    unassignedOpcode_opcode, fun _ => exists_opcode_eq, unassignedOpcode_count⟩

/-- Settles O4: the six formats with a lone register byte, read through the bus. -/
theorem loneRegisterByteAboveFifteenFaults : Obligations.LoneRegisterByteAboveFifteenFaults := by
  intro i k r hl
  obtain ⟨form, hf, h⟩ := hasFormat_encode i
  have hlone : LoneAt i.opcode (encode i) k r := loneAt_of_hasFormat hf h hl
  refine ⟨hlone.byte, fun s b hbelow hb hbig => cpuStep_of_illegal ?_⟩
  exact hlone.illegal _ b (fun j c hj hc => fetchReader_of_ok (hbelow j c hj hc)) (fetchReader_of_ok hb) hbig

/-! ### InvalidDestination (R156, R332) -/

/-- A poll from RUN does not end in a fault that no running machine raises. -/
theorem PollOutcome.status_ne {s t : State} {f : Fault} (h : PollOutcome s t) (hs : s.status = .run)
    (hf : f.raisable = false) (p : Phase) : t.status ≠ .fault f p := by
  intro ht
  cases h with
  | faulted g hg =>
    cases ht
    rw [hg.raisable] at hf
    cases hf
  | completed cs _ hst =>
    rcases hst with h | h
    · cases (hs.symm.trans h.symm).trans ht
    · cases h.symm.trans ht

/-- The write path refuses an immediate destination (R156). -/
theorem writeOp_immediate {o : Operand} (h : o.kind.isImmediate = true) (v : Word) (w : Width) (y ov : Bool) (s : State) :
    writeOp o v w s = .error .invalidDestination ∧ writeOpYV o v w y ov s = .error .invalidDestination := by
  cases o with
  | imm8 | imm16 | imm32 => exact ⟨rfl, rfl⟩
  | reg | regInd | memInd => cases h

/-- Settles O8: by the table's rows, and an instruction's fault is one that a running machine can raise. -/
theorem immediateIsNeverADestination : Obligations.ImmediateIsNeverADestination := by
  refine ⟨Instr.wellFormed, fun _ _ => head_not_immediate, fun i s t p _ hs ht => ?_,
    fun o v w y ov s h => writeOp_immediate h v w y ov s⟩
  obtain ⟨u, hu, ho⟩ := exec_pollOutcome i s
  cases hu.symm.trans ht
  exact ho.status_ne hs rfl p

/-- Settles O7: by running the decoder on the words. -/
theorem sampleWordsDecode : Obligations.SampleWordsDecode := by
  unfold Obligations.SampleWordsDecode
  decide

end Sys2Proof.Machine

/-! PROOFS. Which faults the CPU's part of a step takes, and how many commands it appends (R142, R155, R345). -/

namespace Sys2Proof.Machine

/-! ### The CPU's faults (R142, R326) -/

/-- A poll that completes from RUN does not end in FAULT. -/
theorem status_ne_fault_of_completed {s t : State} (hs : s.status = .run) (ht : t.status = s.status ∨ t.status = .halt)
    (f : Fault) (p : Phase) : t.status ≠ .fault f p := by
  rcases ht with h | h
  · simp [h, hs]
  · simp [h]

theorem cpuPoll_of_run {s : State} (hs : s.status = .run) : cpuPoll s = cpuStep s := by
  simp only [cpuPoll, hs]

/-- A poll from RUN that ends in FAULT is the poll fault of that kind: the fault is its own. -/
theorem PollOutcome.eq_pollFault {s t : State} {f : Fault} {p : Phase} (h : PollOutcome s t) (hs : s.status = .run)
    (ht : t.status = .fault f p) : p = .poll ∧ t = pollFault s f := by
  cases h with
  | faulted g _ =>
    cases ht
    exact ⟨rfl, rfl⟩
  | completed cs _ hst => exact absurd ht (status_ne_fault_of_completed hs hst f p)

/-- Settles O28: the step of a running CPU is its poll, and a poll that completes does not end in FAULT. -/
theorem cpuFaultsChangeNothing : Obligations.CpuFaultsChangeNothing := by
  intro s t f p hs hstep ht
  obtain ⟨u, hu, ho⟩ := cpuPoll_pollOutcome s
  rw [cpuPoll_of_run hs] at hu
  cases hu.symm.trans hstep
  exact ho.eq_pollFault hs ht

/-! ### Faults and commands by instruction (R155, R345) -/

/-- What the tables of R155 and R345 say of an instruction: it takes a fault of a kind that it can raise, or it completes
and appends its number of commands. -/
inductive TableOutcome (i : Instr) (s : State) : State → Prop
  | faulted (f : Fault) : i.mayRaise f = true → TableOutcome i s (pollFault s f)
  | completed {t : State} (cs : List Command) : t.queue = s.queue ++ cs → cs.length = i.commands →
      t.status = s.status ∨ t.status = .halt → TableOutcome i s t

theorem Does.tableOutcome {i : Instr} {s t : State} (d : Does i s t) : TableOutcome i s t := by
  cases d with
  | faults f hm _ => exact .faulted f hm
  | writes _ _ _ _ _ h _ _ hc _ _ => exact .completed [] h.bus.queue hc.symm (.inl h.status)
  | stores _ _ c h _ _ hc _ _ => exact .completed [c] h.bus.queue hc.symm (.inl h.status)
  | compares _ _ _ _ h _ _ hc _ _ => exact .completed [] h.bus.queue hc.symm (.inl h.status)
  | raw _ cs h _ _ hc _ => exact .completed cs h.bus.queue hc (.inl h.status)
  | transfers _ _ cs h _ _ hc _ => exact .completed cs h.bus.queue hc (.inl h.status)
  | halts hi =>
    subst hi
    exact .completed [] (List.append_nil s.queue).symm rfl (.inr rfl)

/-- Settles O37: each shape of effect has the instruction's number of commands, and a fault is of a kind it can raise. -/
theorem eachInstructionRaisesOnlyItsFaults : Obligations.EachInstructionRaisesOnlyItsFaults := by
  intro i s t hx hs ht
  cases (Does.of_exec hx ht).tableOutcome with
  | faulted g hm =>
    refine ⟨fun f p hf => ?_, fun hno => ?_⟩
    · cases hf
      exact ⟨rfl, hm⟩
    · cases hno
  | completed cs hq hlen hst =>
    exact ⟨fun f p hf => absurd hf (status_ne_fault_of_completed hs hst f p), fun _ => ⟨cs, hq, hlen⟩⟩

end Sys2Proof.Machine

/-! PROOFS. The moves, `swap`, and when a store becomes visible (R160 to R163, R170 to R204, R359). -/

namespace Sys2Proof.Machine

/-! ### The low bits of a value (R8, R74, R160) -/

/-- The low bits of a width as a 32-bit value, zero-extended (R8). -/
def zeroExtend : (w : Width) → BitVec w.bits → Word
  | .w8, p => p.setWidth 32
  | .w16, p => p.setWidth 32
  | .w32, p => p

/-- The command that stores exactly the bits of a width (R74). -/
def storeBits (a : Word) : (w : Width) → BitVec w.bits → Command
  | .w8, p => .writeByte a p
  | .w16, p => .writeWord16 a p
  | .w32, p => .writeDword32 a p

theorem trunc_eq_zeroExtend (w : Width) (v : Word) : w.trunc v = zeroExtend w (v.setWidth w.bits) := by
  cases w with
  | w8 => rfl
  | w16 => rfl
  | w32 => exact BitVec.setWidth_eq _

theorem store_eq_storeBits (a : Word) (w : Width) (v : Word) :
    Command.store a w v = storeBits a w (v.setWidth w.bits) := by
  cases w with
  | w8 => rfl
  | w16 => rfl
  | w32 => exact congrArg (Command.writeDword32 a) (BitVec.setWidth_eq v).symm

/-! ### The source of a move (R144, R145) -/

/-- The source can be read, and its low bits are `p`. -/
def ReadsLow (o : Operand) (s : State) (w : Width) (p : BitVec w.bits) : Prop :=
  ∃ v, readOp o s = .ok v ∧ v.setWidth w.bits = p

section Sources
variable {o : Operand} {s : State} {b0 b1 b2 b3 : Byte}

theorem readsLow_reg (s : State) (r : Reg) (w : Width) : ReadsLow (.reg r) s w ((s.reg r).setWidth w.bits) :=
  ⟨_, readOp_reg s r, rfl⟩

theorem readsLow_imm8 (s : State) (v : BitVec 8) : ReadsLow (.imm8 v) s .w8 v :=
  ⟨_, readOp_imm8 s v, BitVec.setWidth_setWidth_of_le v (by decide)⟩

theorem readsLow_imm16 (s : State) (v : BitVec 16) : ReadsLow (.imm16 v) s .w16 v :=
  ⟨_, readOp_imm16 s v, BitVec.setWidth_setWidth_of_le v (by decide)⟩

/-- All 32 bits of a source are its value. -/
theorem readsLow_w32 {v : Word} (h : readOp o s = .ok v) : ReadsLow o s .w32 v :=
  ⟨v, h, BitVec.setWidth_eq v⟩

/-- Of the four bytes a memory source is read as, the lowest is its 8-bit value. -/
theorem readsLow_w8_of_bytes (h : readOp o s = .ok (b3 ++ b2 ++ b1 ++ b0)) : ReadsLow o s .w8 b0 :=
  ⟨_, h, BitVec.setWidth_append_eq_right⟩

/-- Of the four bytes a memory source is read as, the lower two are its 16-bit value. -/
theorem readsLow_w16_of_bytes (h : readOp o s = .ok (b3 ++ b2 ++ b1 ++ b0)) : ReadsLow o s .w16 (b1 ++ b0) := by
  refine ⟨_, h, ?_⟩
  rw [show b3 ++ b2 ++ b1 ++ b0 = (b3 ++ b2) ++ (b1 ++ b0) from BitVec.append_assoc]
  exact BitVec.setWidth_append_eq_right

end Sources

/-! ### A move by its destination (R147, R151, R160) -/

section Moves
variable {i : Instr} {bytes : List Byte} {s : State} {o : Operand} {len : Nat}

/-- A move of a readable source into a register. -/
theorem runs_move_reg {r : Reg} (w : Width) {p : BitVec w.bits} (hb : encode i = bytes)
    (he : exec i s = move w (.reg r) o len s) (ho : ReadsLow o s w p) :
    Runs i bytes s fun t => RegisterResult s t r (zeroExtend w p) w.bits false false len := by
  obtain ⟨v, hv, rfl⟩ := ho
  rw [← trunc_eq_zeroExtend]
  exact ⟨hb, he ▸ move_reg w r len hv⟩

/-- A move of a readable source into the memory a register names. -/
theorem runs_move_regInd {r : Reg} (w : Width) {p : BitVec w.bits} (hb : encode i = bytes)
    (he : exec i s = move w (.regInd r) o len s) (ho : ReadsLow o s w p) :
    Runs i bytes s fun t =>
      StoreResult s t (zeroExtend w p) w.bits (storeBits (storeAddress s t r) w p) len := by
  obtain ⟨v, hv, rfl⟩ := ho
  simp only [← trunc_eq_zeroExtend, ← store_eq_storeBits]
  exact ⟨hb, he ▸ move_regInd w r len hv⟩

/-- A move of a readable source into the memory at an embedded address. -/
theorem runs_move_memInd {a : Word} (w : Width) {p : BitVec w.bits} (hb : encode i = bytes)
    (he : exec i s = move w (.memInd a) o len s) (ho : ReadsLow o s w p) :
    Runs i bytes s fun t => StoreResult s t (zeroExtend w p) w.bits (storeBits a w p) len := by
  obtain ⟨v, hv, rfl⟩ := ho
  rw [← trunc_eq_zeroExtend, ← store_eq_storeBits]
  exact ⟨hb, he ▸ move_memInd w a len hv⟩

/-- A move whose source's byte `k` is the lowest that cannot be read, the source in the memory a register names. -/
theorem exec_of_unreadable_regInd {w : Width} {dst : Operand} {r : Reg} {k : Nat}
    (he : exec i s = move w dst (.regInd r) len s) (h : FirstUnreadable s (s.reg r).toNat 4 k) :
    exec i s = .next (pollFault s (.outOfRange ((s.reg r).toNat + k))) :=
  he.trans (move_error w dst len (readOp_regInd_error h))

/-- A move whose source's byte `k` is the lowest that cannot be read, the source at an embedded address. -/
theorem exec_of_unreadable_memInd {w : Width} {dst : Operand} {a : Word} {k : Nat}
    (he : exec i s = move w dst (.memInd a) len s) (h : FirstUnreadable s a.toNat 4 k) :
    exec i s = .next (pollFault s (.outOfRange (a.toNat + k))) :=
  he.trans (move_error w dst len (readOp_memInd_error h))

end Moves

/-! ### The moves and `swap` (R170 to R204) -/

/-- Settles O41: a 32-bit move into a register, for each kind of source. -/
theorem movCopiesWithFlags : Obligations.MovCopiesWithFlags := by
  intro s r1 r2 v8 v16 v32
  exact ⟨runs_move_reg .w32 rfl rfl (readsLow_w32 (readOp_reg s r2)),
    runs_move_reg .w32 rfl rfl (readsLow_w32 (readOp_imm8 s v8)),
    runs_move_reg .w32 rfl rfl (readsLow_w32 (readOp_imm16 s v16)),
    runs_move_reg .w32 rfl rfl (readsLow_w32 (readOp_imm32 s v32))⟩

/-- Settles O42: at each width, the low part of the four bytes read, or the fault of the read. -/
theorem loadsReadFourBytesAndZeroExtend : Obligations.LoadsReadFourBytesAndZeroExtend := by
  intro s r1 r2 addr2 b0 b1 b2 b3 k
  exact ⟨fun h => runs_move_reg .w8 rfl rfl (readsLow_w8_of_bytes (readOp_regInd_ok h)),
    exec_of_unreadable_regInd rfl,
    fun h => runs_move_reg .w8 rfl rfl (readsLow_w8_of_bytes (readOp_memInd_ok h)),
    exec_of_unreadable_memInd rfl,
    fun h => runs_move_reg .w16 rfl rfl (readsLow_w16_of_bytes (readOp_regInd_ok h)),
    exec_of_unreadable_regInd rfl,
    fun h => runs_move_reg .w16 rfl rfl (readsLow_w16_of_bytes (readOp_memInd_ok h)),
    exec_of_unreadable_memInd rfl,
    fun h => runs_move_reg .w32 rfl rfl (readsLow_w32 (readOp_regInd_ok h)),
    exec_of_unreadable_regInd rfl,
    fun h => runs_move_reg .w32 rfl rfl (readsLow_w32 (readOp_memInd_ok h)),
    exec_of_unreadable_memInd rfl⟩

/-- Settles O43: a move through a register, at each width from a register and from an immediate of that width. -/
theorem storesToRegisterAddress : Obligations.StoresToRegisterAddress := by
  intro s r1 r2 v8 v16 v32
  exact ⟨runs_move_regInd .w8 rfl rfl (readsLow_reg s r2 .w8),
    runs_move_regInd .w8 rfl rfl (readsLow_imm8 s v8),
    runs_move_regInd .w16 rfl rfl (readsLow_reg s r2 .w16),
    runs_move_regInd .w16 rfl rfl (readsLow_imm16 s v16),
    runs_move_regInd .w32 rfl rfl (readsLow_w32 (readOp_reg s r2)),
    runs_move_regInd .w32 rfl rfl (readsLow_w32 (readOp_imm32 s v32))⟩

/-- Settles O44: as O43 with the sources of O42. -/
theorem memoryToMemoryStoresToRegisterAddress : Obligations.MemoryToMemoryStoresToRegisterAddress := by
  intro s r1 r2 addr2 b0 b1 b2 b3 k
  exact ⟨fun h => runs_move_regInd .w8 rfl rfl (readsLow_w8_of_bytes (readOp_regInd_ok h)),
    exec_of_unreadable_regInd rfl,
    fun h => runs_move_regInd .w8 rfl rfl (readsLow_w8_of_bytes (readOp_memInd_ok h)),
    exec_of_unreadable_memInd rfl,
    fun h => runs_move_regInd .w16 rfl rfl (readsLow_w16_of_bytes (readOp_regInd_ok h)),
    exec_of_unreadable_regInd rfl,
    fun h => runs_move_regInd .w16 rfl rfl (readsLow_w16_of_bytes (readOp_memInd_ok h)),
    exec_of_unreadable_memInd rfl,
    fun h => runs_move_regInd .w32 rfl rfl (readsLow_w32 (readOp_regInd_ok h)),
    exec_of_unreadable_regInd rfl,
    fun h => runs_move_regInd .w32 rfl rfl (readsLow_w32 (readOp_memInd_ok h)),
    exec_of_unreadable_memInd rfl⟩

/-- Settles O45: a move to an embedded address, at each width from a register and from an immediate of that width. -/
theorem storesToEmbeddedAddress : Obligations.StoresToEmbeddedAddress := by
  intro s r2 addr v8 v16 v32
  exact ⟨runs_move_memInd .w8 rfl rfl (readsLow_reg s r2 .w8),
    runs_move_memInd .w8 rfl rfl (readsLow_imm8 s v8),
    runs_move_memInd .w16 rfl rfl (readsLow_reg s r2 .w16),
    runs_move_memInd .w16 rfl rfl (readsLow_imm16 s v16),
    runs_move_memInd .w32 rfl rfl (readsLow_w32 (readOp_reg s r2)),
    runs_move_memInd .w32 rfl rfl (readsLow_w32 (readOp_imm32 s v32))⟩

/-- Settles O46: as O45 with the sources of O42. -/
theorem memoryToMemoryStoresToEmbeddedAddress : Obligations.MemoryToMemoryStoresToEmbeddedAddress := by
  intro s r2 addr addr2 b0 b1 b2 b3 k
  exact ⟨fun h => runs_move_memInd .w8 rfl rfl (readsLow_w8_of_bytes (readOp_regInd_ok h)),
    exec_of_unreadable_regInd rfl,
    fun h => runs_move_memInd .w8 rfl rfl (readsLow_w8_of_bytes (readOp_memInd_ok h)),
    exec_of_unreadable_memInd rfl,
    fun h => runs_move_memInd .w16 rfl rfl (readsLow_w16_of_bytes (readOp_regInd_ok h)),
    exec_of_unreadable_regInd rfl,
    fun h => runs_move_memInd .w16 rfl rfl (readsLow_w16_of_bytes (readOp_memInd_ok h)),
    exec_of_unreadable_memInd rfl,
    fun h => runs_move_memInd .w32 rfl rfl (readsLow_w32 (readOp_regInd_ok h)),
    exec_of_unreadable_regInd rfl,
    fun h => runs_move_memInd .w32 rfl rfl (readsLow_w32 (readOp_memInd_ok h)),
    exec_of_unreadable_memInd rfl⟩

/-- Settles O47: `swap` is the raw exchange. -/
theorem swapExchangesRaw : Obligations.SwapExchangesRaw :=
  fun s r1 r2 => ⟨rfl, exchange_raw s r1 r2 2⟩

/-! ### When a store becomes visible (R163, R359) -/

/-- A command whose bytes lie in RAM applies: its bytes are read back, every other address reads as before (R52, R75). -/
theorem appliedTo_ram {s : State} {c : Command} (hw : s.ram.wf = true)
    (ha : c.addr.toNat + c.bytes.length ≤ Config.physicalMemoryLimit)
    (hm : c.addr.toNat + c.bytes.length + s.offset.toNat ≤ s.memSize) :
    ∃ u, AppliedTo [c] s u ∧ u.offset = s.offset ∧
      (∀ k b, c.bytes[k]? = some b → busGet u (c.addr.toNat + k) = .ok b) ∧
      ∀ a, a < c.addr.toNat ∨ c.addr.toNat + c.bytes.length ≤ a → busGet u a = busGet s a := by
  obtain ⟨u, hu, _, hoffset, _, hbytes, hrest⟩ := busWrite_ram hw ha hm
  exact ⟨u, ⟨u, hu, rfl⟩, hoffset, hbytes, hrest⟩

/-- An instruction keeps what the poll phase keeps (R73). -/
theorem PollKeeps.of_exec {i : Instr} {s t : State} (h : exec i s = .next t) : PollKeeps s t := by
  obtain ⟨u, hu, hk⟩ := exec_keeps i s
  cases hu.symm.trans h
  exact hk

/-- After a poll phase without a fault the step ends with the apply phase (R70). -/
theorem endStep_of_run {s : State} (h : s.status = .run) : endStep s = applyPhase s := by
  simp [endStep, h, Status.isFault]

/-- Settles O40: the poll phase keeps the bus the step began with, and the apply phase is the one command. -/
theorem storeIsVisibleAfterItsStepOnly : Obligations.StoreIsVisibleAfterItsStepOnly := by
  intro s t i base c hw hdevices htable hst hread hexec ht hq ha hm
  obtain ⟨t', ht', hstep⟩ := stepRunsTheDecodedInstruction s i base hdevices htable hst hread
  cases ht'.symm.trans hexec
  have hk : PollKeeps s.beginStep t := .of_exec hexec
  have hram : t.ram = s.ram := hk.ram
  have hoffset : t.offset = s.offset := hk.offset
  have hsize : t.memSize = s.memSize := hk.memSize
  have hbus : ∀ a, busGet t a = busGet s a := hk.busGet
  obtain ⟨u, happlied, huoffset, hbytes, hrest⟩ :=
    appliedTo_ram (s := t.setQueue []) (c := c) (hram ▸ hw) ha (by simpa [hoffset, hsize] using hm)
  have hu : endStep t = u := (endStep_of_run ht).trans (happlied.applyPhase_eq hq)
  have hkeeps := happlied.keeps
  exact ⟨hbus, u, hu ▸ hstep, hkeeps.regs, hkeeps.status.trans ht, hkeeps.queue, huoffset.trans hoffset, hbytes,
    fun a h => (hrest a h).trans (hbus a)⟩

end Sys2Proof.Machine

/-! PROOFS. The logic instructions and the shifts (R206 to R208, R210 to R226). -/

namespace Sys2Proof.Machine

/-! ### What the shifts and `not` compute (R207, R208) -/

/-- `shl` by a count whose value is `k` is the product by `2 ^ k` modulo 2^32, and 0 from 32 up. -/
theorem shiftLeftWord_eq (a : Word) {n : Word} {k : Nat} (h : n.toNat = k) :
    shiftLeftWord a n = if 32 ≤ k then 0 else BitVec.ofNat 32 (a.toNat * 2 ^ k) := by
  have hprod : a <<< k = BitVec.ofNat 32 (a.toNat * 2 ^ k) := by
    apply BitVec.eq_of_toNat_eq
    rw [BitVec.toNat_shiftLeft, Nat.shiftLeft_eq, BitVec.toNat_ofNat]
  rw [shiftLeftWord, h, hprod]

/-- `shr` by a count whose value is `k` is the quotient by `2 ^ k`, and 0 from 32 up. -/
theorem shiftRightWord_eq (a : Word) {n : Word} {k : Nat} (h : n.toNat = k) :
    shiftRightWord a n = if 32 ≤ k then 0 else BitVec.ofNat 32 (a.toNat / 2 ^ k) := by
  have hquot : a >>> k = BitVec.ofNat 32 (a.toNat / 2 ^ k) := by
    rw [← Nat.shiftRight_eq_div_pow, ← BitVec.toNat_ushiftRight, BitVec.ofNat_toNat, BitVec.setWidth_eq]
  rw [shiftRightWord, h, hquot]

/-! ### A logic instruction by its shape (R206, R208) -/

section Shapes
variable {i : Instr} {bytes : List Byte} {s : State} {r : Reg} {v : Word} {len : Nat}

/-- A two-operand logic instruction with a readable operand 2 `b`, whose operation gives `v`. -/
theorem runs_binary_reg {f : Word → Word → Word} {o : Operand} {b : Word} (hb : encode i = bytes)
    (he : exec i s = binary f (.reg r) o len s) (ho : readOp o s = .ok b) (hv : f (s.reg r) b = v) :
    Runs i bytes s fun t => RegisterResult s t r v 32 false false len := by
  subst hv
  exact ⟨hb, he ▸ binary_reg f r len ho⟩

/-- A one-operand logic instruction, whose operation gives `v`. -/
theorem runs_unary_reg {f : Word → Word} (hb : encode i = bytes) (he : exec i s = unary f (.reg r) len s)
    (hv : f (s.reg r) = v) : Runs i bytes s fun t => RegisterResult s t r v 32 false false len := by
  subst hv
  exact ⟨hb, he ▸ unary_reg s f r len⟩

end Shapes

/-! ### The logic instructions (R210 to R226) -/

/-- Settles O48: each operation for the four kinds of operand 2. -/
theorem orXorAndResults : Obligations.OrXorAndResults := by
  intro s r1 r2 v8 v16 v32
  exact ⟨runs_binary_reg rfl rfl (readOp_reg s r2) rfl,
    runs_binary_reg rfl rfl (readOp_imm8 s v8) rfl,
    runs_binary_reg rfl rfl (readOp_imm16 s v16) rfl,
    runs_binary_reg rfl rfl (readOp_imm32 s v32) rfl,
    runs_binary_reg rfl rfl (readOp_reg s r2) rfl,
    runs_binary_reg rfl rfl (readOp_imm8 s v8) rfl,
    runs_binary_reg rfl rfl (readOp_imm16 s v16) rfl,
    runs_binary_reg rfl rfl (readOp_imm32 s v32) rfl,
    runs_binary_reg rfl rfl (readOp_reg s r2) rfl,
    runs_binary_reg rfl rfl (readOp_imm8 s v8) rfl,
    runs_binary_reg rfl rfl (readOp_imm16 s v16) rfl,
    runs_binary_reg rfl rfl (readOp_imm32 s v32) rfl⟩

/-- Settles O49: the shifts as arithmetic on the count's value, and `not` as the exclusive or with all ones. -/
theorem shiftAndNotResults : Obligations.ShiftAndNotResults := by
  intro s r1 r2 v8
  exact ⟨runs_binary_reg rfl rfl (readOp_reg s r2) (shiftLeftWord_eq _ rfl),
    runs_binary_reg rfl rfl (readOp_imm8 s v8) (shiftLeftWord_eq _ (BitVec.toNat_setWidth_of_le (by decide))),
    runs_binary_reg rfl rfl (readOp_reg s r2) (shiftRightWord_eq _ rfl),
    runs_binary_reg rfl rfl (readOp_imm8 s v8) (shiftRightWord_eq _ (BitVec.toNat_setWidth_of_le (by decide))),
    runs_unary_reg rfl rfl BitVec.xor_allOnes⟩

end Sys2Proof.Machine

/-! PROOFS. The arithmetic and compare instructions (R227 to R229, R230 to R256). -/

namespace Sys2Proof.Machine

/-! ### Results with carry and overflow (R228) -/

theorem not_fitsSigned32 (n : Int) : (!fitsSigned32 n) = signedOverflow n := by
  rw [fitsSigned32, signedOverflow, ← decide_not, decide_eq_decide]
  omega

theorem addWord_eq (a b : Word) :
    addWord a b = ⟨a + b, decide (2 ^ 32 ≤ a.toNat + b.toNat), signedOverflow (a.toInt + b.toInt)⟩ := by
  rw [addWord, not_fitsSigned32]

theorem subWord_eq (a b : Word) :
    subWord a b = ⟨a - b, decide (a.toNat < b.toNat), signedOverflow (a.toInt - b.toInt)⟩ := by
  rw [subWord, not_fitsSigned32]

/-- The product modulo 2^32 is the low word of the exact product. -/
theorem mulWord_eq (a b : Word) :
    mulWord a b = ⟨BitVec.ofNat 32 (a.toNat * b.toNat), decide (2 ^ 32 ≤ a.toNat * b.toNat),
      signedOverflow (a.toInt * b.toInt)⟩ := by
  have hprod : a * b = BitVec.ofNat 32 (a.toNat * b.toNat) := BitVec.eq_of_toNat_eq (BitVec.toNat_mul a b)
  rw [mulWord, not_fitsSigned32, hprod]

/-- Zero extension to a divisor neither makes nor loses a zero (R144, R229). -/
theorem setWidth_eq_zero_iff {w : Nat} (hw : w ≤ 32) (v : BitVec w) : v.setWidth 32 = 0 ↔ v = 0 := by
  rw [← BitVec.toNat_inj, ← BitVec.toNat_inj, BitVec.toNat_setWidth_of_le hw]
  rfl

/-! ### An arithmetic instruction by its shape (R227 to R229) -/

section ArithShapes
variable {i : Instr} {bytes : List Byte} {s : State} {o : Operand} {r : Reg} {b v : Word} {len : Nat}

/-- An arithmetic instruction with a readable operand 2 `b`, whose operation gives `v` with carry `y` and overflow `ov`. -/
theorem runs_arith_reg {f : Word → Word → ArithResult} {y ov : Bool} (hb : encode i = bytes)
    (he : exec i s = arith f (.reg r) o len s) (ho : readOp o s = .ok b) (hf : f (s.reg r) b = ⟨v, y, ov⟩) :
    Runs i bytes s fun t => RegisterResult s t r v 32 y ov len := by
  have h := arith_reg f r len ho
  rw [hf] at h
  exact ⟨hb, he ▸ h⟩

/-- A comparison with a readable operand 2 `b`. -/
theorem runs_compare_reg (hb : encode i = bytes) (he : exec i s = compare (.reg r) o len s) (ho : readOp o s = .ok b) :
    Runs i bytes s fun t => CompareResult s t (s.reg r) b (decide ((s.reg r).toNat < b.toNat))
      (signedOverflow ((s.reg r).toInt - b.toInt)) len := by
  obtain ⟨t, ht, hflags, hpc, hregs, hstatus, hbus⟩ := compare_reg r len ho
  rw [subWord_eq] at hflags
  exact ⟨hb, t, he.trans ht, hflags, hpc, hregs, hstatus, hbus⟩

/-- A division by a readable operand 2 `b` that is not zero, whose operation gives `v`. -/
theorem runs_divide_reg {f : Word → Word → Word} (hb : encode i = bytes) (he : exec i s = divide f (.reg r) o len s)
    (ho : readOp o s = .ok b) (hne : b ≠ 0) (hv : f (s.reg r) b = v) :
    Runs i bytes s fun t => RegisterResult s t r v 32 false false len := by
  subst hv
  exact ⟨hb, he ▸ divide_reg f r len ho hne⟩

/-- A division by a readable operand 2 that is zero (R324). -/
theorem exec_of_zero_divisor {f : Word → Word → Word} (he : exec i s = divide f (.reg r) o len s)
    (ho : readOp o s = .ok b) (hz : b = 0) : exec i s = .next (pollFault s (.divideByZero (s.reg .pc))) := by
  subst hz
  exact he.trans (divide_zero f r len ho)

end ArithShapes

/-! ### The arithmetic and compare instructions (R230 to R256) -/

/-- Settles O50: each operation for the four kinds of operand 2; `inc` and `dec` have the operand 2 1. -/
theorem addSubIncDecResults : Obligations.AddSubIncDecResults := by
  intro s r1 r2 v8 v16 v32
  exact ⟨runs_arith_reg rfl rfl (readOp_reg s r2) (addWord_eq _ _),
    runs_arith_reg rfl rfl (readOp_imm8 s v8) (addWord_eq _ _),
    runs_arith_reg rfl rfl (readOp_imm16 s v16) (addWord_eq _ _),
    runs_arith_reg rfl rfl (readOp_imm32 s v32) (addWord_eq _ _),
    runs_arith_reg rfl rfl (readOp_reg s r2) (subWord_eq _ _),
    runs_arith_reg rfl rfl (readOp_imm8 s v8) (subWord_eq _ _),
    runs_arith_reg rfl rfl (readOp_imm16 s v16) (subWord_eq _ _),
    runs_arith_reg rfl rfl (readOp_imm32 s v32) (subWord_eq _ _),
    runs_arith_reg rfl rfl (readOp_imm32 s 1#32) (addWord_eq _ _),
    runs_arith_reg rfl rfl (readOp_imm32 s 1#32) (subWord_eq _ _)⟩

/-- Settles O51: the comparison for the four kinds of operand 2; the one-operand form has the operand 2 0. -/
theorem compareSetsOnlyFlags : Obligations.CompareSetsOnlyFlags := by
  intro s r1 r2 v8 v16 v32
  exact ⟨runs_compare_reg rfl rfl (readOp_reg s r2),
    runs_compare_reg rfl rfl (readOp_imm8 s v8),
    runs_compare_reg rfl rfl (readOp_imm16 s v16),
    runs_compare_reg rfl rfl (readOp_imm32 s v32),
    runs_compare_reg rfl rfl (readOp_imm32 s 0#32)⟩

/-- Settles O52: `mul` for the four kinds of operand 2, then `idiv` and `mod`, by whether the divisor is zero before it
is extended. -/
theorem mulDivModResults : Obligations.MulDivModResults := by
  intro s r1 r2 v8 v16 v32
  have h8 := setWidth_eq_zero_iff (by decide) v8
  have h16 := setWidth_eq_zero_iff (by decide) v16
  exact ⟨runs_arith_reg rfl rfl (readOp_reg s r2) (mulWord_eq _ _),
    runs_arith_reg rfl rfl (readOp_imm8 s v8) (mulWord_eq _ _),
    runs_arith_reg rfl rfl (readOp_imm16 s v16) (mulWord_eq _ _),
    runs_arith_reg rfl rfl (readOp_imm32 s v32) (mulWord_eq _ _),
    fun h => runs_divide_reg rfl rfl (readOp_reg s r2) h BitVec.udiv_def,
    exec_of_zero_divisor rfl (readOp_reg s r2),
    fun h => runs_divide_reg rfl rfl (readOp_imm8 s v8) (h8.not.2 h) BitVec.udiv_def,
    fun h => exec_of_zero_divisor rfl (readOp_imm8 s v8) (h8.2 h),
    fun h => runs_divide_reg rfl rfl (readOp_imm16 s v16) (h16.not.2 h) BitVec.udiv_def,
    fun h => exec_of_zero_divisor rfl (readOp_imm16 s v16) (h16.2 h),
    fun h => runs_divide_reg rfl rfl (readOp_imm32 s v32) h BitVec.udiv_def,
    exec_of_zero_divisor rfl (readOp_imm32 s v32),
    fun h => runs_divide_reg rfl rfl (readOp_reg s r2) h BitVec.umod_def,
    exec_of_zero_divisor rfl (readOp_reg s r2),
    fun h => runs_divide_reg rfl rfl (readOp_imm8 s v8) (h8.not.2 h) BitVec.umod_def,
    fun h => exec_of_zero_divisor rfl (readOp_imm8 s v8) (h8.2 h),
    fun h => runs_divide_reg rfl rfl (readOp_imm16 s v16) (h16.not.2 h) BitVec.umod_def,
    fun h => exec_of_zero_divisor rfl (readOp_imm16 s v16) (h16.2 h),
    fun h => runs_divide_reg rfl rfl (readOp_imm32 s v32) h BitVec.umod_def,
    exec_of_zero_divisor rfl (readOp_imm32 s v32)⟩

end Sys2Proof.Machine

/-! PROOFS. The conditional branches, the jumps, `jsr` and `ret` (R257 to R259, R260 to R284). -/

namespace Sys2Proof.Machine

/-! ### A control transfer by its shape (R257, R258) -/

section TransferShapes
variable {i : Instr} {bytes : List Byte} {s : State} {o : Operand} {v : Word} {len : Nat}

/-- A conditional branch with a readable target, by its test of FL. -/
theorem runs_branch {taken : Word → Bool} (hb : encode i = bytes) (he : exec i s = branch taken o len s)
    (ho : readOp o s = .ok v) :
    Runs i bytes s fun t =>
      TransferResult s t (if taken (s.reg .fl) then v else s.reg .pc + BitVec.ofNat 32 len) (s.reg .sp) [] :=
  ⟨hb, he ▸ branch_result taken len ho⟩

/-- A conditional branch with a readable target that is taken where a flag is set. -/
theorem runs_branch_set (f : Flag) (hb : encode i = bytes) (he : exec i s = branch (fun fl => getFlag fl f) o len s)
    (ho : readOp o s = .ok v) :
    Runs i bytes s fun t =>
      TransferResult s t (if getFlag (s.reg .fl) f then v else s.reg .pc + BitVec.ofNat 32 len) (s.reg .sp) [] :=
  runs_branch hb he ho

/-- A conditional branch with a readable target that is taken where one of two flags is set. -/
theorem runs_branch_either (f g : Flag) (hb : encode i = bytes)
    (he : exec i s = branch (fun fl => getFlag fl f || getFlag fl g) o len s) (ho : readOp o s = .ok v) :
    Runs i bytes s fun t =>
      TransferResult s t (if getFlag (s.reg .fl) f || getFlag (s.reg .fl) g then v else s.reg .pc + BitVec.ofNat 32 len)
        (s.reg .sp) [] :=
  runs_branch hb he ho

/-- A conditional branch with a readable target that is taken where a flag is clear. -/
theorem runs_branch_clear (f : Flag) (hb : encode i = bytes) (he : exec i s = branch (fun fl => !getFlag fl f) o len s)
    (ho : readOp o s = .ok v) :
    Runs i bytes s fun t =>
      TransferResult s t (if getFlag (s.reg .fl) f = false then v else s.reg .pc + BitVec.ofNat 32 len) (s.reg .sp) [] := by
  have h := runs_branch hb he ho
  simp only [Bool.not_eq_true'] at h
  exact h

/-- `jmp` to a readable target. -/
theorem runs_jump (hb : encode i = bytes) (he : exec i s = jump o s) (ho : readOp o s = .ok v) :
    Runs i bytes s fun t => TransferResult s t v (s.reg .sp) [] :=
  ⟨hb, he ▸ jump_transfer ho⟩

/-- `jsr` to a readable target, and what the apply phase then does with the return address (R75, R76). -/
theorem runs_call (hb : encode i = bytes) (he : exec i s = call o len s) (ho : readOp o s = .ok v) :
    Runs i bytes s fun t =>
      TransferResult s t v (s.reg .sp - 4) [.writeDword32 (s.reg .sp - 4) (s.reg .pc + BitVec.ofNat 32 len)] ∧
        (s.queue = [] → AppliesOne t (.writeDword32 (s.reg .sp - 4) (s.reg .pc + BitVec.ofNat 32 len))) := by
  obtain ⟨t, ht, htransfer⟩ := call_transfer len ho
  refine ⟨hb, t, he.trans ht, htransfer, fun hq => appliesOne_of_queue ?_⟩
  rw [htransfer.bus.queue, hq, List.nil_append]

end TransferShapes

/-! ### The branches, the jumps, `jsr` and `ret` (R260 to R284) -/

/-- Settles O53: each condition on FL, with a register as the target. -/
theorem branchesToARegister : Obligations.BranchesToARegister := by
  intro s r1
  have ho := readOp_reg s r1
  exact ⟨runs_branch_set .z rfl rfl ho,
    runs_branch_clear .z rfl rfl ho,
    runs_branch_set .s rfl rfl ho,
    runs_branch_clear .s rfl rfl ho,
    runs_branch_set .gt rfl rfl ho,
    runs_branch_either .gt .z rfl rfl ho,
    runs_branch_set .lt rfl rfl ho,
    runs_branch_either .lt .z rfl rfl ho,
    runs_branch_set .v rfl rfl ho,
    runs_branch_clear .v rfl rfl ho⟩

/-- Settles O54: as O53 with an immediate as the target. -/
theorem branchesToAImmediate : Obligations.BranchesToAImmediate := by
  intro s v32
  have ho := readOp_imm32 s v32
  exact ⟨runs_branch_set .z rfl rfl ho,
    runs_branch_clear .z rfl rfl ho,
    runs_branch_set .s rfl rfl ho,
    runs_branch_clear .s rfl rfl ho,
    runs_branch_set .gt rfl rfl ho,
    runs_branch_either .gt .z rfl rfl ho,
    runs_branch_set .lt rfl rfl ho,
    runs_branch_either .lt .z rfl rfl ho,
    runs_branch_set .v rfl rfl ho,
    runs_branch_clear .v rfl rfl ho⟩

/-- Settles O55: `jmp` and `jsr` for the two kinds of target, and `ret` by whether its slot is readable. -/
theorem jumpCallReturnResults : Obligations.JumpCallReturnResults := by
  intro s r1 v32 b0 b1 b2 b3 k
  exact ⟨runs_jump rfl rfl (readOp_reg s r1),
    runs_jump rfl rfl (readOp_imm32 s v32),
    runs_call rfl rfl (readOp_reg s r1),
    runs_call rfl rfl (readOp_imm32 s v32),
    fun h => ⟨rfl, return_transfer h⟩,
    return_error⟩

/-! ### A call and its return (R259, R283, R284, R287) -/

/-- The apply phase of one 32-bit store to RAM keeps registers and status, and its bytes can then be read (R52, R75). -/
theorem applyPhase_writeDword32_ram {t : State} {a x : Word} (hw : t.ram.wf = true)
    (hq : t.queue = [.writeDword32 a x]) (ha : a.toNat + 4 ≤ Config.physicalMemoryLimit)
    (hm : a.toNat + 4 + t.offset.toNat ≤ t.memSize) :
    (∀ r, (applyPhase t).reg r = t.reg r) ∧ (applyPhase t).status = t.status ∧
      Readable (applyPhase t) a.toNat (bytes32 x) := by
  obtain ⟨u, happlied, _, hbytes, _⟩ := appliedTo_ram (s := t.setQueue []) (c := .writeDword32 a x) hw ha hm
  have hkeeps := happlied.keeps
  rw [happlied.applyPhase_eq hq]
  exact ⟨fun r => congrArg (·.get r) hkeeps.regs, hkeeps.status,
    readable_of_busGet (Nat.le_trans ha (by decide)) hbytes⟩

/-- `ret` with the bytes of a word in its slot goes to that word (R77, R284). -/
theorem return_transfer_word {s : State} {x : Word} (h : Readable s (s.reg .sp).toNat (bytes32 x)) :
    ∃ t, returnFromCall s = .next t ∧ TransferResult s t x (s.reg .sp + 4) [] := by
  have hret := return_transfer h
  rwa [append_bytes32] at hret

/-- Settles O39: the store of `jsr` is applied to the slot that `ret` reads, and SP comes back as it went. -/
theorem callThenReturnComesBack : Obligations.CallThenReturnComesBack := by
  intro s target hw hq hlo hhi hm
  obtain ⟨t, hcall, hcallPc, hcallSp, hcallRegs, hcallStatus, hcallBus⟩ := call_transfer 5 (readOp_imm32 s target)
  have hslot : (s.reg .sp - 4).toNat + 4 = (s.reg .sp).toNat := by bv_omega
  obtain ⟨hregs, hstatus, hread⟩ := applyPhase_writeDword32_ram (t := t) (hcallBus.ram ▸ hw)
    (by rw [hcallBus.queue, hq, List.nil_append]) (hslot ▸ hhi)
    (by rw [hcallBus.offset, hcallBus.memSize, hslot]; exact hm)
  rw [← hcallSp, ← hregs] at hread
  obtain ⟨u, hret, hretPc, hretSp, hretRegs, hretStatus, _⟩ := return_transfer_word hread
  refine ⟨t, u, hcall, hcallPc, hret, hretStatus.trans (hstatus.trans hcallStatus), hretPc, fun r hr => ?_⟩
  by_cases hsp : r = .sp
  case pos => rw [hsp, hretSp, hregs, hcallSp, BitVec.sub_add_cancel]
  case neg =>
    have hmem : r ∉ [Reg.pc, .sp] := by simp [hr, hsp]
    rw [hretRegs r hmem, hregs, hcallRegs r hmem]

end Sys2Proof.Machine

/-! PROOFS. The stack instructions (R285 to R303). -/

namespace Sys2Proof.Machine

/-! ### A stack instruction by its shape (R285 to R289) -/

section StackShapes
variable {i : Instr} {bytes : List Byte} {s : State} {o : Operand} {v : Word} {len : Nat}

/-- A push of a readable operand, and what the apply phase then does with its low bits (R75, R76, R285). -/
theorem runs_push (w : Width) {p : BitVec w.bits} (hb : encode i = bytes) (he : exec i s = push w o len s)
    (ho : ReadsLow o s w p) :
    Runs i bytes s fun t =>
      RawResult s t [(.sp, s.reg .sp - BitVec.ofNat 32 w.bytes)] len
          [storeBits (s.reg .sp - BitVec.ofNat 32 w.bytes) w p] ∧
        (s.queue = [] → AppliesOne t (storeBits (s.reg .sp - BitVec.ofNat 32 w.bytes) w p)) := by
  obtain ⟨v, hv, rfl⟩ := ho
  obtain ⟨t, ht, hraw⟩ := push_raw w len hv
  rw [← store_eq_storeBits]
  refine ⟨hb, t, he.trans ht, hraw, fun hq => appliesOne_of_queue ?_⟩
  rw [hraw.bus.queue, hq, List.nil_append]

/-- A pop of readable bytes, whose value is `v`. -/
theorem runs_pop (w : Width) {r : Reg} {bs : List Byte} (hb : encode i = bytes) (he : exec i s = pop w r len s)
    (hl : w.bytes = bs.length) (hv : leWord bs = v) (h : Readable s (s.reg .sp).toNat bs) :
    Runs i bytes s fun t => RawResult s t [(.sp, s.reg .sp + BitVec.ofNat 32 w.bytes), (r, v)] len [] := by
  subst hv
  exact ⟨hb, he ▸ pop_raw w r len h hl⟩

/-- A pop whose byte `k` is the lowest that cannot be read (R288). -/
theorem exec_of_unreadable_slot (w : Width) {r : Reg} {k : Nat} (he : exec i s = pop w r len s)
    (h : FirstUnreadable s (s.reg .sp).toNat w.bytes k) :
    exec i s = .next (pollFault s (.outOfRange ((s.reg .sp).toNat + k))) :=
  he.trans (pop_error w r len h)

/-- `popx` of a readable operand. -/
theorem runs_discard (hb : encode i = bytes) (he : exec i s = discard o len s) (ho : readOp o s = .ok v) :
    Runs i bytes s fun t => RawResult s t [(.sp, s.reg .sp + v)] len [] :=
  ⟨hb, he ▸ discard_raw len ho⟩

end StackShapes

/-! ### One push and one pop (R290 to R295, R297 to R299, R301 to R303) -/

/-- Settles O56: a push for each width and each kind of operand. -/
theorem pushResults : Obligations.PushResults := by
  intro s r1 v8 v16 v32
  exact ⟨runs_push .w8 rfl rfl (readsLow_reg s r1 .w8),
    runs_push .w8 rfl rfl (readsLow_imm8 s v8),
    runs_push .w16 rfl rfl (readsLow_reg s r1 .w16),
    runs_push .w16 rfl rfl (readsLow_imm16 s v16),
    runs_push .w32 rfl rfl (readsLow_w32 (readOp_reg s r1)),
    runs_push .w32 rfl rfl (readsLow_w32 (readOp_imm32 s v32))⟩

/-- Settles O58: a pop for each width by whether its slot is readable, then `popx` for each kind of operand. -/
theorem popResults : Obligations.PopResults := by
  intro s r1 v8 v16 b0 b1 b2 b3 k
  exact ⟨runs_pop .w8 rfl rfl rfl (leWord_one b0),
    exec_of_unreadable_slot .w8 rfl,
    runs_pop .w16 rfl rfl rfl (leWord_two b0 b1),
    exec_of_unreadable_slot .w16 rfl,
    runs_pop .w32 rfl rfl rfl (leWord_four b0 b1 b2 b3),
    exec_of_unreadable_slot .w32 rfl,
    runs_discard rfl rfl (readOp_reg s r1),
    runs_discard rfl rfl (readOp_imm8 s v8),
    runs_discard rfl rfl (readOp_imm16 s v16)⟩

/-! ### The slots of `push.a` and `pop.a` (R296, R300) -/

/-- Dword `n + 1` above an address is dword `n` above the next dword. -/
theorem add_dword_succ (a : Word) (n : Nat) : a + BitVec.ofNat 32 (4 * (n + 1)) = a + 4 + BitVec.ofNat 32 (4 * n) := by
  rw [Nat.mul_succ, Nat.add_comm, BitVec.ofNat_add, ← BitVec.add_assoc]
  rfl

/-- Dword `n + 1` below an address is dword `n` below the dword below it. -/
theorem sub_dword_succ (a : Word) (n : Nat) : a - BitVec.ofNat 32 (4 * (n + 1)) = a - 4 - BitVec.ofNat 32 (4 * n) := by
  rw [Nat.mul_succ, Nat.add_comm, BitVec.ofNat_add, sub_add_eq_sub_sub]
  rfl

/-- The store of register `n` of the list is to dword `n + 1` below the address. -/
theorem pushCommands_eq_mapIdx (s : State) (rs : List Reg) (a : Word) :
    pushCommands s rs a = rs.mapIdx fun n r => .writeDword32 (a - BitVec.ofNat 32 (4 * (n + 1))) (s.reg r) := by
  induction rs generalizing a with
  | nil => rfl
  | cons r rs ih =>
    rw [pushCommands, ih, List.mapIdx_cons]
    simp only [sub_dword_succ a, Nat.zero_add, Nat.mul_one]
    rfl

/-- Slot `n` is dword `n` above the address. -/
theorem slotsReadable_iff {s : State} {ps : List (Reg × Word)} {a : Word} :
    SlotsReadable s ps a ↔ ∀ n p, ps[n]? = some p → memRead s (a + BitVec.ofNat 32 (4 * n)).toNat 4 = .ok p.2 := by
  induction ps generalizing a with
  | nil => simp [SlotsReadable]
  | cons p ps ih =>
    rw [SlotsReadable, ih]
    constructor
    case mp =>
      rintro ⟨hfirst, hrest⟩ n q hq
      cases n with
      | zero =>
        cases hq
        simpa using hfirst
      | succ n =>
        rw [add_dword_succ]
        exact hrest n q hq
    case mpr =>
      intro h
      refine ⟨by simpa using h 0 p rfl, fun n q hq => ?_⟩
      rw [← add_dword_succ]
      exact h (n + 1) q hq

/-- Slots followed by one more, above them. -/
theorem SlotsReadable.concat {s : State} {ps : List (Reg × Word)} {p : Reg × Word} {a : Word}
    (h : SlotsReadable s ps a) (hp : memRead s (a + BitVec.ofNat 32 (4 * ps.length)).toNat 4 = .ok p.2) :
    SlotsReadable s (ps ++ [p]) a := by
  induction ps generalizing a with
  | nil => exact ⟨by simpa using hp, trivial⟩
  | cons q ps ih =>
    obtain ⟨hfirst, hrest⟩ := h
    rw [List.length_cons, add_dword_succ] at hp
    exact ⟨hfirst, ih hrest hp⟩

/-- The slots are read in order, so the first that has an unreadable byte stops them at its lowest one (R288, R300). -/
theorem readSlots_error {s : State} {rs : List Reg} {a : Word} {n k : Nat} (hn : n < rs.length)
    (hok : ∀ m, m < n → ∃ v, memRead s (a + BitVec.ofNat 32 (4 * m)).toNat 4 = .ok v)
    (h : FirstUnreadable s (a + BitVec.ofNat 32 (4 * n)).toNat 4 k) :
    readSlots s rs a = .error (.outOfRange ((a + BitVec.ofNat 32 (4 * n)).toNat + k)) := by
  induction rs generalizing a n with
  | nil => exact absurd hn (Nat.not_lt_zero n)
  | cons r rs ih =>
    cases n with
    | zero =>
      have hfail := memRead_error h
      rw [Nat.mul_zero, BitVec.add_zero] at hfail ⊢
      simp only [readSlots, hfail]
      rfl
    | succ n =>
      obtain ⟨v, hv⟩ := hok 0 (Nat.succ_pos n)
      rw [Nat.mul_zero, BitVec.add_zero] at hv
      rw [add_dword_succ] at h ⊢
      have hrest := ih (Nat.lt_of_succ_lt_succ hn)
        (fun m hm => add_dword_succ a m ▸ hok (m + 1) (Nat.succ_lt_succ hm)) h
      simp only [readSlots, hv, hrest]
      rfl

/-- `pop.a` with an unreadable slot changes nothing (R142, R288). -/
theorem popAll_error {s : State} {n k : Nat} (len : Nat) (hn : n < 12)
    (hok : ∀ m, m < n → ∃ v, memRead s (s.reg .sp + BitVec.ofNat 32 (4 * m)).toNat 4 = .ok v)
    (h : FirstUnreadable s (s.reg .sp + BitVec.ofNat 32 (4 * n)).toNat 4 k) :
    popAll len s = .next (pollFault s (.outOfRange ((s.reg .sp + BitVec.ofNat 32 (4 * n)).toNat + k))) := by
  simp only [popAll, readSlots_error (rs := stackedRegs.reverse) hn hok h]
  rfl

/-! ### Registers after raw writes (R22, R152) -/

/-- A raw result's registers but PC hold what was written last. -/
theorem RawResult.reg_of_ne_pc {s t : State} {ws : List (Reg × Word)} {len : Nat} {cs : List Command} {r : Reg}
    (h : RawResult s t ws len cs) (hr : r ≠ .pc) : t.reg r = finalValue s ws r := by
  rw [h.regs, if_neg hr]
  exact BitVec.add_zero _

/-- The last of raw writes in order decides for its register. -/
theorem finalValue_concat (s : State) (ws : List (Reg × Word)) (q r : Reg) (v : Word) :
    finalValue s (ws ++ [(q, v)]) r = if q = r then v else finalValue s ws r := by
  simp only [finalValue, List.foldl_append, List.foldl_cons, List.foldl_nil]

/-- A register that holds a value and is written no other holds it at the end. -/
theorem finalValue_of_forall {s : State} {ws : List (Reg × Word)} {r : Reg} {v : Word} (hs : s.reg r = v)
    (h : ∀ w ∈ ws, w.1 = r → w.2 = v) : finalValue s ws r = v := by
  rw [← reg_setRegs]
  induction ws generalizing s with
  | nil => exact hs
  | cons w ws ih =>
    obtain ⟨hw, hws⟩ := List.forall_mem_cons.1 h
    refine ih ?_ hws
    by_cases hr : w.1 = r
    case pos => rw [← hr, reg_setReg_same, hw hr]
    case neg => rw [reg_setReg_ne s (Ne.symm hr), hs]

/-! ### `push.a` and `pop.a` (R296, R300) -/

/-- What `pop.a` writes into A to L where dword `n` of its slots is `v n`: L from the lowest, A from the highest. -/
def slotWrites (v : Nat → Word) : List (Reg × Word) := stackedRegs.reverse.zip ((List.range 12).map v)

theorem slotWrites_readable {s : State} {a : Word} {v : Nat → Word}
    (h : ∀ n, n < 12 → memRead s (a + BitVec.ofNat 32 (4 * n)).toNat 4 = .ok (v n)) :
    SlotsReadable s (slotWrites v) a := by
  refine slotsReadable_iff.2 fun n p hp => ?_
  obtain ⟨_, hv⟩ := List.getElem?_zip_eq_some.1 hp
  rw [List.getElem?_map] at hv
  obtain ⟨m, hm, hval⟩ := Option.map_eq_some_iff.1 hv
  obtain ⟨hlt, rfl⟩ := List.getElem?_eq_some_iff.1 hm
  rw [List.length_range] at hlt
  rw [h n hlt, ← hval, List.getElem_range]

/-- Settles O57: the twelve stores by their place in the list, the twelve reads by their slots, or the first of them that
fails. -/
theorem pushAllPopAllResults : Obligations.PushAllPopAllResults := by
  intro s
  refine ⟨?push, rfl, fun v hv => ?pop, fun n k hn hok h => popAll_error 1 hn hok h⟩
  case push =>
    obtain ⟨t, ht, hraw⟩ := pushAll_raw s 1
    rw [pushCommands_eq_mapIdx] at hraw
    exact ⟨rfl, t, ht, hraw, applyPhaseIsInOrderAndStopsAtAFault t⟩
  case pop =>
    obtain ⟨t, ht, hraw⟩ := popAll_raw (ps := slotWrites v) 1 rfl (slotWrites_readable hv)
    have hregs : stackedRegs.reverse.map t.reg =
        stackedRegs.reverse.map (finalValue s (slotWrites v ++ [(.sp, s.reg .sp + 48)])) :=
      List.map_congr_left fun r hr => hraw.reg_of_ne_pc fun hpc => absurd (hpc ▸ hr) (by decide)
    exact ⟨t, ht, hraw.status, hraw.bus, hregs, hraw.reg_of_ne_pc (by decide), hraw.regs .pc,
      hraw.reg_of_ne_pc (by decide), hraw.reg_of_ne_pc (by decide)⟩

/-! ### `push.a` and then `pop.a` (R287, R300) -/

/-- The stores of pushes into RAM apply one below the other, so each slot then holds its register and nothing from the
address up has changed (R52, R75, R285). -/
theorem appliedTo_pushCommands {s m : State} {rs : List Reg} {a : Word} (hw : m.ram.wf = true)
    (hlo : 4 * rs.length ≤ a.toNat) (hhi : a.toNat ≤ Config.physicalMemoryLimit)
    (hm : a.toNat + m.offset.toNat ≤ m.memSize) :
    ∃ u, AppliedTo (pushCommands s rs a) m u ∧
      SlotsReadable u (rs.reverse.map fun r => (r, s.reg r)) (a - BitVec.ofNat 32 (4 * rs.length)) ∧
      ∀ c, a.toNat ≤ c → busGet u c = busGet m c := by
  induction rs generalizing m a with
  | nil => exact ⟨m, rfl, trivial, fun _ _ => rfl⟩
  | cons r rs ih =>
    rw [List.length_cons] at hlo
    have hslot : (a - 4).toNat + 4 = a.toNat := by bv_omega
    obtain ⟨n, hn, hoffset, hbytes, habove⟩ := appliedTo_ram (c := .writeDword32 (a - 4) (s.reg r)) hw
      (show (a - 4).toNat + 4 ≤ _ from hslot ▸ hhi) (show (a - 4).toNat + 4 + m.offset.toNat ≤ _ from hslot ▸ hm)
    have hsize : n.memSize = m.memSize := hn.keeps.memSize
    obtain ⟨u, hu, hslots, hrest⟩ := ih (m := n) (a := a - 4) (hn.ram_wf hw) (by omega) (by omega)
      (by rw [hoffset, hsize]; omega)
    have hread : Readable u (a - 4).toNat (bytes32 (s.reg r)) :=
      readable_of_busGet (show (a - 4).toNat + 4 ≤ _ from hslot ▸ Nat.le_trans hhi (by decide))
        fun k b hk => (hrest _ (Nat.le_add_right _ k)).trans (hbytes k b hk)
    refine ⟨u, hn.append hu, ?_, fun c hc => (hrest c (by omega)).trans (habove c (.inr (hslot ▸ hc)))⟩
    rw [List.length_cons, sub_dword_succ, List.reverse_cons, List.map_append]
    refine hslots.concat ?_
    rw [List.length_map, List.length_reverse, BitVec.sub_add_cancel]
    exact memRead_bytes32 hread

/-- The apply phase of the stores of `push.a` to RAM keeps registers and status, and fills the slots of `pop.a`. -/
theorem applyPhase_pushAll_ram {s t : State} {len : Nat}
    (ht : RawResult s t [(.sp, s.reg .sp - 48)] len (pushCommands s stackedRegs (s.reg .sp)))
    (hw : s.ram.wf = true) (hq : s.queue = []) (hlo : 48 ≤ (s.reg .sp).toNat)
    (hhi : (s.reg .sp).toNat ≤ Config.physicalMemoryLimit) (hm : (s.reg .sp).toNat + s.offset.toNat ≤ s.memSize) :
    (∀ r, (applyPhase t).reg r = t.reg r) ∧ (applyPhase t).status = t.status ∧
      SlotsReadable (applyPhase t) (stackedRegs.reverse.map fun r => (r, s.reg r)) (s.reg .sp - 48) := by
  have hbus := ht.bus
  obtain ⟨u, happlied, hslots, _⟩ := appliedTo_pushCommands (s := s) (m := t.setQueue []) (rs := stackedRegs)
    (a := s.reg .sp) (by simpa [hbus.ram] using hw) hlo hhi (by simpa [hbus.offset, hbus.memSize] using hm)
  have hkeeps := happlied.keeps
  rw [happlied.applyPhase_eq (by rw [hbus.queue, hq, List.nil_append])]
  exact ⟨fun r => congrArg (·.get r) hkeeps.regs, hkeeps.status, hslots⟩

/-- Settles O38: the stores of `push.a` are applied to the slots that `pop.a` reads, and SP comes back as it went. -/
theorem pushAllThenPopAllRestores : Obligations.PushAllThenPopAllRestores := by
  intro s hw hq hlo hhi hm
  obtain ⟨t, hpush, hraw⟩ := pushAll_raw s 1
  obtain ⟨hregs, hstatus, hslots⟩ := applyPhase_pushAll_ram hraw hw hq hlo hhi hm
  have hsp : (applyPhase t).reg .sp = s.reg .sp - 48 := (hregs .sp).trans (hraw.reg_of_ne_pc (by decide))
  rw [← hsp] at hslots
  obtain ⟨u, hpop, hrawPop⟩ := popAll_raw 1 rfl hslots
  refine ⟨t, u, hpush, hpop, hrawPop.status.trans (hstatus.trans hraw.status), ?pc, fun r hr => ?regs⟩
  case pc =>
    have hwrites : ∀ w ∈ (stackedRegs.reverse.map fun r => (r, s.reg r)) ++ [(.sp, (applyPhase t).reg .sp + 48)],
        w.1 ≠ .pc := by
      simp [stackedRegs]
    have hpcPush : t.reg .pc = s.reg .pc + 1 := by
      rw [hraw.regs, finalValue_of_ne (by simp)]
      rfl
    rw [hrawPop.regs, finalValue_of_ne hwrites, hregs, hpcPush, BitVec.add_assoc]
    rfl
  case regs =>
    rw [hrawPop.reg_of_ne_pc hr, finalValue_concat]
    split
    case isTrue h => rw [← h, hsp, BitVec.sub_add_cancel]
    case isFalse h =>
      have hkept : (applyPhase t).reg r = s.reg r := by
        rw [hregs, hraw.reg_of_ne_pc hr, finalValue_of_ne (by simpa using h)]
      refine finalValue_of_forall hkept fun w hw => ?_
      obtain ⟨q, _, rfl⟩ := List.mem_map.1 hw
      exact congrArg s.reg

end Sys2Proof.Machine

/-! PROOFS. The halted CPU, and the instructions that only advance PC or change the status (R305, R306, R310 to R316). -/

namespace Sys2Proof.Machine

/-! ### From HALT no step comes back to RUN (R306) -/

theorem exec_halt (s : State) : exec .halt s = .next ((s.setStatus .halt).advance 1) := rfl

theorem cpuPoll_of_halt {s : State} (hs : s.status = .halt) : cpuPoll s = .next s := by
  simp only [cpuPoll, hs]

theorem Status.isFault_iff {st : Status} : st.isFault = true ↔ ∃ f p, st = .fault f p := by
  cases st <;> simp [Status.isFault]

/-- What a machine in HALT has kept in `t`: the registers, and a status that is HALT or FAULT. -/
structure HaltKeeps (s t : State) : Prop where
  regs : t.regs = s.regs
  status : t.status = .halt ∨ t.status.isFault = true

/-- The CPU's entry does nothing, and another device neither writes a register nor leaves HALT but by its fault. -/
theorem pollEntry_of_halt {d e : DeviceEntry} {s t : State} (hs : s.status = .halt) (hp : pollEntry d s = (.next t, e)) :
    HaltKeeps s t := by
  obtain ⟨base, dev⟩ := d
  cases dev with
  | cpu =>
    simp only [pollEntry, cpuPoll_of_halt hs] at hp
    cases hp
    exact ⟨rfl, .inl hs⟩
  | other id size st =>
    obtain ⟨u, e', hp', _, _, hother⟩ := pollEntry_keeps ⟨base, .other id size st⟩ s
    cases hp.symm.trans hp'
    obtain ⟨hregs, hst⟩ := hother rfl
    exact ⟨hregs, hst.imp_left (·.trans hs)⟩

/-- The poll phase of a halted machine: every entry is polled in HALT, up to the first that raises. -/
theorem pollDevices_of_halt {ds es : List DeviceEntry} {s t : State} (hs : s.status = .halt)
    (hp : pollDevices ds s = (.next t, es)) : HaltKeeps s t := by
  induction ds generalizing s es with
  | nil =>
    cases hp
    exact ⟨rfl, .inl hs⟩
  | cons d ds ih =>
    obtain ⟨u, e, hpoll, _⟩ := pollEntry_keeps d s
    obtain ⟨hregs, hst⟩ := pollEntry_of_halt hs hpoll
    rcases hst with hu | hu
    · rw [pollDevices_cons_of_not_fault hpoll (by rw [hu]; rfl)] at hp
      obtain ⟨hnext, _⟩ := Prod.mk.inj hp
      have hk := ih hu (Prod.ext hnext rfl)
      exact ⟨hk.regs.trans hregs, hk.status⟩
    · rw [pollDevices_cons_of_fault hpoll hu] at hp
      cases hp
      exact ⟨hregs, .inr hu⟩

/-- What follows the poll phase writes no register, and changes the status to FAULT only (R75, R76). -/
theorem HaltKeeps.endStep {s t : State} (h : HaltKeeps s t) : HaltKeeps s (endStep t) := by
  unfold Machine.endStep
  split
  case isTrue => exact h
  case isFalse =>
    have hk : ApplyKeeps (t.setQueue []) (applyPhase t) := applyQueue_keeps _ _
    refine ⟨hk.regs.trans h.regs, ?_⟩
    rcases hk.status with hst | hf
    · rw [hst]
      exact h.status
    · exact .inr hf

/-- A global step from HALT, whatever the devices. -/
theorem step_of_halt {s t : State} (hs : s.status = .halt) (h : step s = .next t) : HaltKeeps s t := by
  rcases step_next_cases h with ⟨_, rfl⟩ | ⟨_, _, u, es, hp, rfl⟩
  · exact ⟨rfl, .inl hs⟩
  · obtain ⟨hregs, hst⟩ := pollDevices_of_halt (s := s.beginStep) hs hp
    exact HaltKeeps.endStep (t := u.setDevices es) ⟨hregs, hst⟩

/-- With the CPU alone nothing is queued, so the step of a halted machine draws ELAPSED and no more (R70, R72). -/
theorem step_of_halt_alone {s : State} {base : Option Word} (hs : s.status = .halt) (hd : s.devices = [⟨base, .cpu⟩])
    (hok : deviceTableOk s.devices = true) : step s = .next s.beginStep := by
  have hcpu : pollEntry ⟨base, .cpu⟩ s.beginStep = (.next s.beginStep, ⟨base, .cpu⟩) := by
    simp only [pollEntry, cpuPoll_of_halt (s := s.beginStep) hs]
  have hrun : s.status.isFault = false := by rw [hs]; rfl
  have hp : pollDevices s.devices s.beginStep = (.next s.beginStep, s.devices) := by
    rw [hd, pollDevices_cons_of_not_fault hcpu hrun]
    rfl
  rw [step_of_tableOk hrun hok hp]
  have hend : endStep s.beginStep = applyPhase s.beginStep := if_neg (by simp [hrun])
  exact congrArg Host.Outcome.next hend

/-- Settles O30: the poll of a halted CPU does nothing, the polls of other devices and the apply phase write no register, and each
changes the status to FAULT only. -/
theorem haltedCpuDoesNothing : Obligations.HaltedCpuDoesNothing := by
  refine ⟨fun s => ⟨_, exec_halt s, rfl⟩, fun s hs => ⟨cpuPoll_of_halt hs, fun t ht => ?_, fun base hd hok => ?_⟩⟩
  · obtain ⟨hregs, hst⟩ := step_of_halt hs ht
    exact ⟨hregs, hst.imp_right Status.isFault_iff.1⟩
  · exact step_of_halt_alone hs hd hok

/-! ### The system instructions (R310 to R316) -/

/-- With no extension `sys`, `iret` and `sret` take the fault that names their opcode (R305, R325). -/
theorem runs_extension_of_none {i : Instr} {bytes : List Byte} {s : State} (hx : s.ext = none) (hb : encode i = bytes)
    (hi : i.isExtension = true) :
    Runs i bytes s fun t => t = pollFault s (.extensionNotImplemented i.opcode) :=
  ⟨hb, _, (exec_of_isExtension hi s).trans (extension_of_none hx _ _), rfl⟩

/-- `nop` and `dbg`: PC alone is advanced. -/
theorem runs_advance {i : Instr} {bytes : List Byte} {s : State} {len : Nat} (hb : encode i = bytes)
    (he : exec i s = .next (s.advance len)) : Runs i bytes s fun t => RawResult s t [] len [] :=
  ⟨hb, _, he, advance_raw s len⟩

/-- `halt`: the status, and PC past the instruction (R306, R315). -/
theorem runs_halt (s : State) :
    Runs .halt [0x88#8] s fun t =>
      t.status = .halt ∧ BusKept s t [] ∧ ∀ r, t.reg r = if r = .pc then s.reg .pc + 1 else s.reg r :=
  ⟨rfl, _, exec_halt s, rfl, busKept_of rfl rfl rfl rfl rfl rfl (List.append_nil _).symm, fun r => reg_advance _ 1 r⟩

/-- Settles O59: the three kinds of system instruction, each by its own meaning. -/
theorem systemInstructionResults : Obligations.SystemInstructionResults := by
  intro s r1 v8
  refine ⟨fun hx => ?extension, ?nop, ?dbg, runs_halt s⟩
  case extension =>
    exact ⟨runs_extension_of_none hx rfl rfl, runs_extension_of_none hx rfl rfl, runs_extension_of_none hx rfl rfl,
      runs_extension_of_none hx rfl rfl⟩
  case nop => exact runs_advance rfl rfl
  case dbg => exact runs_advance rfl rfl

end Sys2Proof.Machine

/-! PROOFS. The machine in FAULT takes no further step (R327). -/

namespace Sys2Proof.Machine

/-- In FAULT the step returns at once: no device is polled and ELAPSED is not drawn (R70, R327). -/
theorem step_of_isFault {s : State} (hs : s.status.isFault = true) : step s = .next s :=
  if_pos hs

/-- A state that the step answers with itself is where every run from it stays. -/
theorem run_of_step_self {M : Host.Core} {s : M.State} (h : M.step s = .next s) (n : Nat) : M.run n s = .next s := by
  induction n with
  | zero => rfl
  | succ n ih => simp only [Host.Core.run, h, ih]

/-- Settles O29: a state in FAULT is a fixed point of the step. -/
theorem faultIsAbsorbing : Obligations.FaultIsAbsorbing := by
  intro n s f p hs
  have hstep : step s = .next s := step_of_isFault (Status.isFault_iff.2 ⟨f, p, hs⟩)
  exact run_of_step_self (M := core) hstep n

end Sys2Proof.Machine
